-- ==== Sys2Proof/Word.lean ====
section
/-! DEFINITION. The words the serial link carries and the numbers that name things (00_scope.md, Conventions). -/

namespace Sys2Proof

/-- One byte on the serial link, sent most significant bit first. -/
abbrev Byte := BitVec 8

/-- A two-byte field, most significant byte first. -/
abbrev Half := BitVec 16

/-- A three-byte field, most significant byte first. -/
abbrev Tri := BitVec 24

/-- A seat, numbered 4 × station + seat index (WA 0, WB 1, DA 2, DB 3). -/
abbrev SeatNo := Fin 16

/-- A station (one grinder). -/
abbrev StationNo := Fin 4

/-- A wheel seat, named by its load channel: 2s is WA and 2s + 1 is WB of station s (R73). -/
abbrev WheelNo := Fin 8

/-- A sister group. -/
abbrev GroupNo := Fin 32

/-- A load channel: 0 to 7 are LD0 to LD7, 8 is the reference REF. -/
abbrev ChannelNo := Fin 9

end Sys2Proof
end

