-- ==== Sys2Proof/Syntax.lean ====
section
/-! DEFINITION. The commands of the block: one constructor of `Instr` for each row of spec/opcode_table.json, with the
operands that the command's argument bytes (R180, R181), the frame (R162) or the pins carry. -/

namespace Sys2Proof

/-- The eight measure fields that ENROL and EDIT carry (R20, R181). -/
structure Measures where
  partsUsed  : Tri
  partsLimit : Tri
  wearUsed   : Tri
  wearLimit  : Tri
  dressUsed  : Half
  dressLimit : Half
  stockNow   : Half
  stockFloor : Half
deriving DecidableEq, Repr

/-- The fields of DEFINE in the order of R181. -/
structure DefineArgs where
  group           : Byte
  kind            : Byte
  policy          : Byte
  nominalLoad     : Half
  warnMargin      : Byte
  rollWear        : Byte
  lossFloor       : Half
  overloadCeiling : Half
  contactLevel    : Half
  engageDelay     : Byte
  blankingTime    : Byte
  filterTime      : Half
  fast            : Byte
  maxCutTime      : Half
deriving DecidableEq, Repr

/-- The three filter timers of a wheel seat (R132). -/
inductive FilterKind where
  | loss | overload | contact
deriving DecidableEq, Repr

/-- The levels of the twelve station inputs as one tick samples them (R82); true is high.
`cut` is indexed by wheel seat: CUTAs is 2s and CUTBs is 2s + 1. -/
structure Samples where
  cut  : Vector Bool 8
  pend : Vector Bool 4
deriving DecidableEq, Repr

/-- The straps ADR1, ADR0 and CRCEN as the part reads them at the fall of nSEL (R162). -/
structure Straps where
  strap : BitVec 2
  crcen : Bool
deriving DecidableEq, Repr

/-- The moment of a frame at which its row acts (log entry 3): the fall of nSEL, where the straps are read and the status
byte is formed (R162, R164); the beginning of the third byte, where a FETCH forms its reply (R163, R172); the rise of
nSEL, where the frame is accepted or rejected (R167); or all three, with no other event between them. -/
inductive FrameMoment where
  | fall (straps : Straps)
  | thirdByte
  | rise
  | whole (straps : Straps)
deriving DecidableEq, Repr

/-- The bits of a frame that carries none of the three kinds (R162, R167): one that ends before its kind is complete,
after zero to three clocks, or one of kind 11 with the bits clocked after the kind. -/
inductive NoKind where
  | noClock
  | oneClock (adr1 : Bool)
  | twoClocks (addr : BitVec 2)
  | threeClocks (addr : BitVec 2) (kind1 : Bool)
  | kind11 (addr : BitVec 2) (tail : List Bool)
deriving DecidableEq, Repr

/-- The commands of the block, one per row of spec/opcode_table.json. In the frame commands `addr` is the chip address
that the header carries and `tail` the bits clocked after the frame kind, in the order of the clocks: bits 3 to 0 of the
header first, then the bytes after it. The rows of the moments of one frame carry the same bits. -/
inductive Instr where
  | enrol (tool : Half) (kind presence : Byte) (m : Measures)
  | edit (tool : Half) (apply presence : Byte) (m : Measures)
  | retire (tool : Half)
  | query (tool : Half)
  | next (t : Half)
  | lock (tool : Half)
  | unlock (tool : Half)
  | define (a : DefineArgs)
  | link (group : Byte) (tool : Half) (index : Byte)
  | unlink (tool : Half)
  | group (group : Byte)
  | bind (seat group : Byte)
  | unbind (seat : Byte)
  | mount (seat : Byte) (tool : Half)
  | swap (seat : Byte)
  | whereSeat (seat : Byte)
  | release (seat : Byte)
  | condemn (seat : Byte)
  | check (seat : Byte) (lo hi : Half) (duration : Byte)
  | dress (seat : Byte) (infeed : Half)
  | readLoad (channel : Byte)
  | setSense (channel count : Byte)
  | takeNotices
  | setLink (watchdog stretch : Byte)
  | resume
  | restart
  | ident
  | statusFrame (moment : FrameMoment) (addr : BitVec 2) (tail : List Bool)
  | commandFrame (moment : FrameMoment) (addr : BitVec 2) (tail : List Bool)
  | fetchFrame (moment : FrameMoment) (addr : BitVec 2) (tail : List Bool)
  | powerOn (nRST : Bool)
  | nrstLow
  | tick (samples : Samples)
  | cutRisingEdge (wheel : WheelNo)
  | cutFallingEdge (wheel : WheelNo)
  | partEnd (station : StationNo)
  | engageDelayEnd (wheel : WheelNo)
  | blankingTimeEnd (wheel : WheelNo)
  | filterTimerFires (wheel : WheelNo) (timer : FilterKind)
  | overtime (wheel : WheelNo)
  | checkDurationEnd (wheel : WheelNo)
  | stretchTimerEnd (station : StationNo)
  | watchdogExpiry
  | conversionEnd (code : BitVec 10)
  | nrstHigh
  | frameOfNoKind (moment : FrameMoment) (bits : NoKind)
deriving DecidableEq, Repr

end Sys2Proof
end

