-- ==== Sys2Proof/WellFormed.lean ====
section
/-! DEFINITION. Well-formedness: the argument checks that R179 answers with BAD_ARG. A command that fails them is still
a command, and the part refuses it with BAD_ARG and changes nothing; every other row is always well formed. -/

namespace Sys2Proof

/-- 0 and 65,535 are not tool numbers (00_scope.md, Conventions). -/
def toolOk (t : Half) : Bool := t != 0 && t != 0xFFFF

/-- A seat number is 0 to 15. -/
def seatOk (b : Byte) : Bool := decide (b.toNat < 16)

/-- A group number is 0 to 31. -/
def groupOk (b : Byte) : Bool := decide (b.toNat < 32)

/-- A channel number is 0 to 8. -/
def channelOk (b : Byte) : Bool := decide (b.toNat < 9)

/-- The window of a probe check after the clamp of both limits to 1023 (R146): lo is not above hi. -/
def windowOk (lo hi : Half) : Bool := decide (min lo.toNat 1023 ≤ min hi.toNat 1023)

/-- The argument checks of R179, with the two cases of R146. -/
def Instr.wf : Instr → Bool
  | .enrol t k _ _ => toolOk t && (k == 1 || k == 2)
  | .edit t _ _ _ => toolOk t
  | .retire t => toolOk t
  | .query t => toolOk t
  | .next _ => true
  | .lock t => toolOk t
  | .unlock t => toolOk t
  | .define a => groupOk a.group && decide (a.kind.toNat < 3) && decide (a.policy.toNat < 2)
  | .link g t _ => groupOk g && toolOk t
  | .unlink t => toolOk t
  | .group g => groupOk g
  | .bind q g => seatOk q && groupOk g
  | .unbind q => seatOk q
  | .mount q t => seatOk q && toolOk t
  | .swap q => seatOk q
  | .whereSeat q => seatOk q
  | .release q => seatOk q
  | .condemn q => seatOk q
  | .check q lo hi _ => seatOk q && decide (q.toNat % 4 < 2) && windowOk lo hi
  | .dress q _ => seatOk q
  | .readLoad c => channelOk c
  | .setSense c _ => channelOk c
  | .takeNotices => true
  | .setLink _ _ => true
  | .resume => true
  | .restart => true
  | .ident => true
  | .statusFrame _ _ _ => true
  | .commandFrame _ _ _ => true
  | .fetchFrame _ _ _ => true
  | .powerOn _ => true
  | .nrstLow => true
  | .tick _ => true
  | .cutRisingEdge _ => true
  | .cutFallingEdge _ => true
  | .partEnd _ => true
  | .engageDelayEnd _ => true
  | .blankingTimeEnd _ => true
  | .filterTimerFires _ _ => true
  | .overtime _ => true
  | .checkDurationEnd _ => true
  | .stretchTimerEnd _ => true
  | .watchdogExpiry => true
  | .conversionEnd _ => true
  | .nrstHigh => true
  | .frameOfNoKind _ _ => true

/-- The commands that a COMMAND frame can carry (R180). -/
def Instr.isCommand : Instr → Bool
  | .enrol _ _ _ _ | .edit _ _ _ _ | .retire _ | .query _ | .next _ | .lock _ | .unlock _ | .define _
  | .link _ _ _ | .unlink _ | .group _ | .bind _ _ | .unbind _ | .mount _ _ | .swap _ | .whereSeat _
  | .release _ | .condemn _ | .check _ _ _ _ | .dress _ _ | .readLoad _ | .setSense _ _ | .takeNotices
  | .setLink _ _ | .resume | .restart | .ident => true
  | .statusFrame _ _ _ | .commandFrame _ _ _ | .fetchFrame _ _ _ | .powerOn _ | .nrstLow | .tick _
  | .cutRisingEdge _ | .cutFallingEdge _ | .partEnd _ | .engageDelayEnd _ | .blankingTimeEnd _
  | .filterTimerFires _ _ | .overtime _ | .checkDurationEnd _ | .stretchTimerEnd _ | .watchdogExpiry
  | .conversionEnd _ | .nrstHigh | .frameOfNoKind _ _ => false

end Sys2Proof
end

