-- ==== Sys2Proof/Decode.lean ====
section
/-! DEFINITION. The byte layouts of the commands (R180, R181): from the code byte and the argument bytes of a COMMAND
frame to the command, and back. `decodeTableWord` answers for the rows of the opcode table that give bits: none does. -/

namespace Sys2Proof

/-- The command that a word of the opcode table's bits spells. No row of spec/opcode_table.json gives bits (log entry 21). -/
def decodeTableWord (_nbits _w : Nat) : Option Instr := none

/-- Two bytes, most significant first. -/
def half (b1 b0 : Byte) : Half := b1 ++ b0

/-- Three bytes, most significant first. -/
def tri (b2 b1 b0 : Byte) : Tri := b2 ++ b1 ++ b0

/-- The bytes of a two-byte field, most significant first. -/
def Half.bytes (x : Half) : List Byte := [x.extractLsb' 8 8, x.extractLsb' 0 8]

/-- The bytes of a three-byte field, most significant first. -/
def Tri.bytes (x : Tri) : List Byte := [x.extractLsb' 16 8, x.extractLsb' 8 8, x.extractLsb' 0 8]

/-- The twenty bytes of the measure fields of ENROL and EDIT, from offset 4 on (R181). -/
def decodeMeasures : List Byte → Option Measures
  | [a0, a1, a2, a3, a4, a5, a6, a7, a8, a9, a10, a11, a12, a13, a14, a15, a16, a17, a18, a19] =>
    some { partsUsed := tri a0 a1 a2, partsLimit := tri a3 a4 a5, wearUsed := tri a6 a7 a8, wearLimit := tri a9 a10 a11,
           dressUsed := half a12 a13, dressLimit := half a14 a15, stockNow := half a16 a17, stockFloor := half a18 a19 }
  | _ => none

/-- The measure fields as the link carries them. -/
def encodeMeasures (m : Measures) : List Byte :=
  Tri.bytes m.partsUsed ++ Tri.bytes m.partsLimit ++ Tri.bytes m.wearUsed ++ Tri.bytes m.wearLimit
    ++ Half.bytes m.dressUsed ++ Half.bytes m.dressLimit ++ Half.bytes m.stockNow ++ Half.bytes m.stockFloor

/-- ENROL and EDIT: tool number, two bytes, then the measure fields. -/
def decodeToolMeasures (f : Half → Byte → Byte → Measures → Instr) : List Byte → Option Instr
  | t1 :: t0 :: a :: p :: rest => (decodeMeasures rest).map (f (half t1 t0) a p)
  | _ => none

/-- The twenty argument bytes of DEFINE (R181). -/
def decodeDefine : List Byte → Option Instr
  | [g, k, p, n1, n0, m, r, l1, l0, o1, o0, c1, c0, e, b, f1, f0, fast, x1, x0] =>
    some (.define { group := g, kind := k, policy := p, nominalLoad := half n1 n0, warnMargin := m, rollWear := r,
                    lossFloor := half l1 l0, overloadCeiling := half o1 o0, contactLevel := half c1 c0,
                    engageDelay := e, blankingTime := b, filterTime := half f1 f0, fast := fast, maxCutTime := half x1 x0 })
  | _ => none

/-- The DEFINE layout; the group report begins with the same twenty bytes (R185). -/
def encodeDefine (a : DefineArgs) : List Byte :=
  [a.group, a.kind, a.policy] ++ Half.bytes a.nominalLoad ++ [a.warnMargin, a.rollWear] ++ Half.bytes a.lossFloor
    ++ Half.bytes a.overloadCeiling ++ Half.bytes a.contactLevel ++ [a.engageDelay, a.blankingTime]
    ++ Half.bytes a.filterTime ++ [a.fast] ++ Half.bytes a.maxCutTime

/-- No argument bytes. -/
def decode0 (i : Instr) : List Byte → Option Instr
  | [] => some i
  | _ => none

/-- One argument byte. -/
def decode1 (f : Byte → Instr) : List Byte → Option Instr
  | [a] => some (f a)
  | _ => none

/-- Two argument bytes. -/
def decode2 (f : Byte → Byte → Instr) : List Byte → Option Instr
  | [a, b] => some (f a b)
  | _ => none

/-- One field of two bytes. -/
def decodeTool (f : Half → Instr) : List Byte → Option Instr
  | [t1, t0] => some (f (half t1 t0))
  | _ => none

/-- A byte and a field of two bytes: MOUNT, DRESS. -/
def decodeSeatHalf (f : Byte → Half → Instr) : List Byte → Option Instr
  | [a, t1, t0] => some (f a (half t1 t0))
  | _ => none

/-- LINK: group, tool number, index. -/
def decodeLink : List Byte → Option Instr
  | [g, t1, t0, i] => some (.link g (half t1 t0) i)
  | _ => none

/-- CHECK: seat, lo, hi, duration. -/
def decodeCheck : List Byte → Option Instr
  | [q, l1, l0, h1, h0, d] => some (.check q (half l1 l0) (half h1 h0) d)
  | _ => none

/-- The command that a code byte and its argument bytes carry (R180, R181): none if the code names no command or the
number of argument bytes is not the code's. -/
def decodeCommand (code : Byte) (args : List Byte) : Option Instr :=
  match code.toNat with
  | 0x10 => decodeToolMeasures .enrol args
  | 0x11 => decodeToolMeasures .edit args
  | 0x12 => decodeTool .retire args
  | 0x13 => decodeTool .query args
  | 0x14 => decodeTool .next args
  | 0x15 => decodeTool .lock args
  | 0x16 => decodeTool .unlock args
  | 0x20 => decodeDefine args
  | 0x21 => decodeLink args
  | 0x22 => decodeTool .unlink args
  | 0x23 => decode1 .group args
  | 0x30 => decode2 .bind args
  | 0x31 => decode1 .unbind args
  | 0x32 => decodeSeatHalf .mount args
  | 0x33 => decode1 .swap args
  | 0x34 => decode1 .whereSeat args
  | 0x35 => decode1 .release args
  | 0x36 => decode1 .condemn args
  | 0x37 => decodeCheck args
  | 0x40 => decodeSeatHalf .dress args
  | 0x50 => decode1 .readLoad args
  | 0x51 => decode2 .setSense args
  | 0x60 => decode0 .takeNotices args
  | 0x61 => decode2 .setLink args
  | 0x62 => decode0 .resume args
  | 0x63 => decode0 .restart args
  | 0x64 => decode0 .ident args
  | _ => none

/-- The code byte and argument bytes of a command (R180, R181); none for a row that no COMMAND frame carries. -/
def encodeCommand : Instr → Option (Byte × List Byte)
  | .enrol t k p m => some (0x10, Half.bytes t ++ [k, p] ++ encodeMeasures m)
  | .edit t a p m => some (0x11, Half.bytes t ++ [a, p] ++ encodeMeasures m)
  | .retire t => some (0x12, Half.bytes t)
  | .query t => some (0x13, Half.bytes t)
  | .next t => some (0x14, Half.bytes t)
  | .lock t => some (0x15, Half.bytes t)
  | .unlock t => some (0x16, Half.bytes t)
  | .define a => some (0x20, encodeDefine a)
  | .link g t i => some (0x21, [g] ++ Half.bytes t ++ [i])
  | .unlink t => some (0x22, Half.bytes t)
  | .group g => some (0x23, [g])
  | .bind q g => some (0x30, [q, g])
  | .unbind q => some (0x31, [q])
  | .mount q t => some (0x32, [q] ++ Half.bytes t)
  | .swap q => some (0x33, [q])
  | .whereSeat q => some (0x34, [q])
  | .release q => some (0x35, [q])
  | .condemn q => some (0x36, [q])
  | .check q lo hi d => some (0x37, [q] ++ Half.bytes lo ++ Half.bytes hi ++ [d])
  | .dress q x => some (0x40, [q] ++ Half.bytes x)
  | .readLoad c => some (0x50, [c])
  | .setSense c n => some (0x51, [c, n])
  | .takeNotices => some (0x60, [])
  | .setLink w x => some (0x61, [w, x])
  | .resume => some (0x62, [])
  | .restart => some (0x63, [])
  | .ident => some (0x64, [])
  | .statusFrame _ _ _ | .commandFrame _ _ _ | .fetchFrame _ _ _ | .powerOn _ | .nrstLow | .tick _
  | .cutRisingEdge _ | .cutFallingEdge _ | .partEnd _ | .engageDelayEnd _ | .blankingTimeEnd _
  | .filterTimerFires _ _ | .overtime _ | .checkDurationEnd _ | .stretchTimerEnd _ | .watchdogExpiry
  | .conversionEnd _ | .nrstHigh | .frameOfNoKind _ _ => none

end Sys2Proof
end

