-- ==== Sys2Proof/Config.lean ====
section
/-! DEFINITION. The free values: what the data sheet leaves open and the part settles in some way it does not state.
Each is a constant without a body, so that no proof can use a value of it. -/

namespace Sys2Proof

/-- Which of several events of one tick is taken next, where the world has placed none of them before the next tick
(R83, R138; log entry 6). Applied to the counter `freeCount` of the state; only its remainder by the number of events is used. -/
opaque Config.eventChoice : Nat → Nat

/-- Whether, of two seats of one station that begin their changes at one part end, the one with the higher number
begins first: "the seat controller begins them in either order" (R94, R100; log entry 8). Applied to `freeCount`. -/
opaque Config.laterSeatFirst : Nat → Bool

/-- Whether the blanking after a cut during which DEFINE has given the group another blanking time runs the time that stands
at the falling edge (R87, R88) rather than the one the cut began with (R58, R80; log entry 23). Applied to `freeCount`. -/
opaque Config.newBlanking : Nat → Bool

/-- The byte by which the group report shows FAST = yes, before the limit that it is not 0, which is the code of no
(R181, R185; log entry 9). -/
opaque Config.fastYesByte : Byte

end Sys2Proof
end

