-- ==== Sys2Proof/Machine/State.lean ====
section
/-! DEFINITION. The state of the LV6120, every piece the data sheet names, as plain data, and its value right after a
reset. Records are R2; groups R54; seats, wheel seats and stations R73; the load scan R118 to R127; the notice set R152;
the command link R162 to R178. -/

namespace Sys2Proof.Machine

/-- Record kind and group kind (R2, R54); the kind NONE is an absent group. -/
inductive Kind where
  | wheel | dresser
deriving DecidableEq, Repr

/-- The seven record states (section 1.4). -/
inductive RecState where
  | available | chosen | active | suspect | held | spent | broken
deriving DecidableEq, Repr

/-- The reason recorded when a suspicion is raised (R7). -/
inductive BreakCause where
  | loss | overload | overtime | contact | probe
deriving DecidableEq, Repr

/-- A set drawn from the four measures (R9). -/
structure EndedSet where
  parts : Bool
  wear  : Bool
  dress : Bool
  stock : Bool
deriving DecidableEq, Repr

/-- A tool record, field by field as R2 lists them. -/
structure ToolRecord where
  number     : Nat
  kind       : Kind
  state      : RecState
  group      : Option GroupNo
  seat       : Option SeatNo
  partsUsed  : Nat
  partsLimit : Option Nat
  wearUsed   : Nat
  wearLimit  : Option Nat
  wearCarry  : Nat
  dressUsed  : Nat
  dressLimit : Option Nat
  stockNow   : Nat
  stockStart : Nat
  stockFloor : Option Nat
  warned     : Bool
  ended      : EndedSet
  cause      : Option BreakCause
deriving DecidableEq, Repr

/-- The order in which selection searches a member list (R54). -/
inductive Policy where
  | priority | rotate
deriving DecidableEq, Repr

/-- The parameters of a defined group, all written by DEFINE (R54). -/
structure Params where
  policy          : Policy
  nominalLoad     : Nat
  warnMargin      : Nat
  rollWear        : Nat
  lossFloor       : Nat
  overloadCeiling : Nat
  contactLevel    : Nat
  engageDelay     : Nat
  blankingTime    : Nat
  filterTime      : Nat
  fast            : Bool
  maxCutTime      : Nat
deriving DecidableEq, Repr

/-- A defined sister group (R54). The wait queue is listed from head to tail (R69). -/
structure Group where
  kind    : Kind
  params  : Params
  members : List Nat
  cursor  : Option Nat
  queue   : List SeatNo
deriving DecidableEq, Repr

/-- The six service states of a seat (section 4.2). -/
inductive Service where
  | unbound | waiting | changing | running | due | halted
deriving DecidableEq, Repr

/-- What every seat holds (R73). The tool of a seat is the record whose seat field names it (R3). -/
structure Seat where
  service : Service
  group   : Option GroupNo
deriving DecidableEq, Repr

/-- The phases of a wheel seat's cut (section 4.5). -/
inductive Phase where
  | idle | engage | cut | settle
deriving DecidableEq, Repr

/-- A running phase timer: ticks run, and the time in milliseconds it was started with (R84, R87). -/
structure PhaseTimer where
  count : Nat
  time  : Nat
deriving DecidableEq, Repr

/-- A running filter timer or cut timer: ticks counted, and whether it fired at the last tick, its firing not yet
taken (R135, R137; log entry 11). -/
structure WatchTimer where
  count : Nat
  fires : Bool
deriving DecidableEq, Repr

/-- A probe check in flight (R147). -/
structure ProbeCheck where
  lo     : Nat
  hi     : Nat
  steps  : Nat
  count  : Nat
  tested : Bool
deriving DecidableEq, Repr

/-- The last probe result of a wheel seat (R150). -/
inductive ProbeResult where
  | none | pass | low | high | noData | aborted
deriving DecidableEq, Repr

/-- What a wheel seat holds beside its seat (R73, R132). `cutBlanking` is the blanking time in milliseconds that the cut in
progress, or the last one, began with (R58, R80; log entry 23). -/
structure Wheel where
  phase       : Phase
  phaseTimer  : Option PhaseTimer
  cutBlanking : Nat
  cutSeen     : Bool
  accumulator : Nat
  loss        : Option WatchTimer
  overload    : Option WatchTimer
  contact     : Option WatchTimer
  cutTimer    : Option WatchTimer
  check       : Option ProbeCheck
  lastResult  : ProbeResult
deriving DecidableEq, Repr

/-- A running lamp stretch timer: ticks counted, and the stretch time in milliseconds it was started with (R159). -/
structure StretchTimer where
  count : Nat
  time  : Nat
deriving DecidableEq, Repr

/-- What a station holds (R73, R159). -/
structure Station where
  partOpen : Bool
  stretch  : Option StretchTimer
deriving DecidableEq, Repr

/-- A taken change of level (R82). -/
inductive Edge where
  | rising | falling
deriving DecidableEq, Repr

/-- A sampled input: its taken level (none: not yet set), the sample of the previous tick (none: no tick since the
reset), and an edge taken at the last tick that has not acted yet (R82, R83). -/
structure Line where
  taken : Option Bool
  last  : Option Bool
  edge  : Option Edge
deriving DecidableEq, Repr

/-- A load channel: averaging count, block (sum and codes held), published average, fresh flag (R120 to R122). -/
structure Channel where
  count   : Nat
  sum     : Nat
  held    : Nat
  average : Nat
  fresh   : Bool
deriving DecidableEq, Repr

/-- The load scan: scan pointer, channels, the reference monitor's run count and the sense fault (R118, R127). -/
structure Scan where
  pointer  : ChannelNo
  channels : Vector Channel 9
  run      : Nat
  fault    : Bool
deriving DecidableEq, Repr

/-- The notice flags of a seat (R152); a dresser seat never has the last three. -/
structure SeatFlags where
  warn     : Bool
  spent    : Bool
  change   : Bool
  wait     : Bool
  breakage : Bool
  check    : Bool
  foreign  : Bool
deriving DecidableEq, Repr

/-- The device notices (R152). -/
structure DeviceFlags where
  reset : Bool
  hold  : Bool
  sense : Bool
deriving DecidableEq, Repr

/-- The stretch times SET LINK can set (R175). -/
inductive StretchTime where
  | ms500 | ms1000 | ms2000 | ms4000
deriving DecidableEq, Repr

/-- The notice set: the flags and the stretch time in force (R152, R157, R160). -/
structure Notices where
  seats   : Vector SeatFlags 16
  device  : DeviceFlags
  stretch : StretchTime
deriving DecidableEq, Repr

/-- The reply codes (R179). -/
inductive ReplyCode where
  | done | dresserSkipped | endOfTable
  | unknownTool | duplicate | tableFull | listFull | noGroup | wrongKind | inUse | badState
  | notEligible | noTool | checkBusy | badArg
deriving DecidableEq, Repr

/-- A reply: its code and the data bytes that go with it (R171, R182). -/
structure Reply where
  code : ReplyCode
  data : List Byte
deriving DecidableEq, Repr

/-- The reply buffer (R171): BUSY is pending, with the command that executes; REPLY is stored. -/
inductive ReplyBuffer where
  | empty
  | pending (command : Instr)
  | stored (reply : Reply)
deriving DecidableEq, Repr

/-- The watchdog periods SET LINK can set (R175). -/
inductive WatchdogPeriod where
  | off | ms50 | ms200 | ms1000
deriving DecidableEq, Repr

/-- The cause of the last reset (R178). -/
inductive ResetCause where
  | power | pin | restart
deriving DecidableEq, Repr

/-- A frame in progress, from the fall of nSEL to its rise (R162): the straps as read at the fall, the status byte as
formed there (R164), and the bytes of the reply, once a FETCH has begun to return them (R163, R172). -/
structure Frame where
  strap  : BitVec 2
  crcen  : Bool
  status : Byte
  reply  : Option (List Byte)
deriving DecidableEq, Repr

/-- What the command link owns (R162 to R178). `watchdog` is the count of the running watchdog timer, none when it is
stopped (R173). -/
structure Link where
  buffer   : ReplyBuffer
  linkErr  : Bool
  hold     : Bool
  period   : WatchdogPeriod
  watchdog : Option Nat
  cause    : ResetCause
  millis   : BitVec 32
  frame    : Option Frame
deriving DecidableEq, Repr

/-- The levels of the output pins (true is high). `sdo` holds what SDO carried during the last frame taken since the reset:
the bits of the clocks after the header, or none, where it stayed high-impedance throughout or no frame has ended since the
reset (R163; log entry 17). -/
structure Pins where
  permit : Vector Bool 4
  lamp   : Vector Bool 4
  nATTN  : Bool
  sdo    : Option (List Bool)
deriving DecidableEq, Repr

/-- The LV6120. `nRST` is the level of the reset pin: while it is low the part is held in reset (R178). `freeCount` is
the model's own counter that the free values are applied to (log entry 15). `pending` is the queue of the commands
that wait, first in, first out. -/
structure State where
  table     : List ToolRecord
  groups    : Vector (Option Group) 32
  seats     : Vector Seat 16
  wheels    : Vector Wheel 8
  stations  : Vector Station 4
  cutLines  : Vector Line 8
  pendLines : Vector Line 4
  scan      : Scan
  notices   : Notices
  link      : Link
  pins      : Pins
  nRST      : Bool
  freeCount : Nat
  pending   : List Instr
deriving DecidableEq, Repr

/-- No step of the data sheet stops the part (log entry 19): a command that cannot act is refused by a reply code
(R179), a frame that fails a check is rejected (R167), and both are next states. So no meaning faults. -/
inductive Fault : Type where
deriving DecidableEq, Repr

/-- Why a command has no outcome in this model. -/
inductive Refusal where
  /-- Raised by the dispatch for a row that has no meaning yet; safe. No row is left so. -/
  | notModelled (mnemonic : String)
deriving DecidableEq, Repr

/-- The empty set of ended measures. -/
def EndedSet.empty : EndedSet := { parts := false, wear := false, dress := false, stock := false }

/-- A wheel seat after a reset (R74, R132). No cut has begun, so that `cutBlanking` is 0 is the model's choice (log entry 23). -/
def Wheel.reset : Wheel :=
  { phase := .idle, phaseTimer := none, cutBlanking := 0, cutSeen := false, accumulator := 0, loss := none,
    overload := none, contact := none, cutTimer := none, check := none, lastResult := .none }

/-- An input line after a reset: taken level not yet set (R82). -/
def Line.reset : Line := { taken := none, last := none, edge := none }

/-- A load channel after a reset (R119). -/
def Channel.reset : Channel := { count := 8, sum := 0, held := 0, average := 0, fresh := false }

/-- A seat's notice flags, all clear. -/
def SeatFlags.clear : SeatFlags :=
  { warn := false, spent := false, change := false, wait := false, breakage := false, check := false, foreign := false }

/-- The part right after a reset, nRST high (R1, R54, R74, R119, R132, R157, R178). The cause POWER is log entry 2. -/
def State.reset : State where
  table     := []
  groups    := Vector.replicate 32 none
  seats     := Vector.replicate 16 { service := .unbound, group := none }
  wheels    := Vector.replicate 8 Wheel.reset
  stations  := Vector.replicate 4 { partOpen := false, stretch := none }
  cutLines  := Vector.replicate 8 Line.reset
  pendLines := Vector.replicate 4 Line.reset
  scan      := { pointer := 0, channels := Vector.replicate 9 Channel.reset, run := 0, fault := false }
  notices   := { seats := Vector.replicate 16 SeatFlags.clear,
                 device := { reset := true, hold := false, sense := false }, stretch := .ms1000 }
  link      := { buffer := .empty, linkErr := false, hold := false, period := .off, watchdog := none, cause := .power,
                 millis := 0, frame := none }
  pins      := { permit := Vector.replicate 4 false, lamp := Vector.replicate 4 false, nATTN := false, sdo := none }
  nRST      := true
  freeCount := 0
  pending   := []

end Sys2Proof.Machine
end

