-- ==== Sys2Proof/Machine/Operands.lean ====
section
/-! DEFINITION. The operands: the argument checks of R179, the clamps of the commands' rules, the seat arithmetic of R73,
and the encodings of R184 by which arguments and reports name the same items. -/

namespace Sys2Proof.Machine

/-! ### Identities: none is the refusal BAD_ARG (R179) -/

/-- A tool number: 0 and 65,535 are none. -/
def toolArg (t : Half) : Option Nat := if t = 0 ∨ t = 0xFFFF then none else some t.toNat

/-- A seat number, 0 to 15. -/
def seatArg (b : Byte) : Option SeatNo := if h : b.toNat < 16 then some ⟨b.toNat, h⟩ else none

/-- A group number, 0 to 31. -/
def groupArg (b : Byte) : Option GroupNo := if h : b.toNat < 32 then some ⟨b.toNat, h⟩ else none

/-- A load channel, 0 to 8. -/
def channelArg (b : Byte) : Option ChannelNo := if h : b.toNat < 9 then some ⟨b.toNat, h⟩ else none

/-- A record kind: 1 WHEEL, 2 DRESSER (R184). -/
def kindArg (b : Byte) : Option Kind :=
  if b = 1 then some .wheel else if b = 2 then some .dresser else none

/-- The kind DEFINE carries: 0 NONE, 1 WHEEL, 2 DRESSER (R181); the inner none is NONE. -/
def groupKindArg (b : Byte) : Option (Option Kind) :=
  if b = 0 then some none else (kindArg b).map some

/-- A policy: 0 PRIORITY, 1 ROTATE (R184). -/
def policyArg (b : Byte) : Option Policy :=
  if b = 0 then some .priority else if b = 1 then some .rotate else none

/-! ### Seats (R73) -/

/-- The station of a seat. -/
def stationOf (q : SeatNo) : StationNo := ⟨q.val / 4, by have := q.isLt; omega⟩

/-- The wheel seat that a seat number names; none for a dresser seat. -/
def wheelOf (q : SeatNo) : Option WheelNo :=
  if q.val % 4 < 2 then some ⟨2 * (q.val / 4) + q.val % 2, by have := q.isLt; omega⟩ else none

/-- The wheel seat itself, or the wheel seat a dresser seat is paired with. -/
def pairedWheel (q : SeatNo) : WheelNo := ⟨2 * (q.val / 4) + q.val % 2, by have := q.isLt; omega⟩

/-- The seat number of a wheel seat. -/
def seatOfWheel (w : WheelNo) : SeatNo := ⟨4 * (w.val / 2) + w.val % 2, by have := w.isLt; omega⟩

/-- The dresser seat paired with a wheel seat. -/
def dresserOf (w : WheelNo) : SeatNo := ⟨4 * (w.val / 2) + w.val % 2 + 2, by have := w.isLt; omega⟩

/-- The station of a wheel seat. -/
def stationOfWheel (w : WheelNo) : StationNo := ⟨w.val / 2, by have := w.isLt; omega⟩

/-- The four seats of a station: WA, WB, DA, DB. -/
def seatsOf (st : StationNo) : List SeatNo :=
  [⟨4 * st.val, by have := st.isLt; omega⟩, ⟨4 * st.val + 1, by have := st.isLt; omega⟩,
   ⟨4 * st.val + 2, by have := st.isLt; omega⟩, ⟨4 * st.val + 3, by have := st.isLt; omega⟩]

/-- The wheel seats of a station: A and B. -/
def wheelsOf (st : StationNo) : List WheelNo :=
  [⟨2 * st.val, by have := st.isLt; omega⟩, ⟨2 * st.val + 1, by have := st.isLt; omega⟩]

/-- The kind of group a seat is bound to (R76). -/
def seatKind (q : SeatNo) : Kind := if q.val % 4 < 2 then .wheel else .dresser

/-- The load channel of a wheel seat: LD(2s) for WA and LD(2s + 1) for WB (R73). -/
def channelOf (w : WheelNo) : ChannelNo := ⟨w.val, by have := w.isLt; omega⟩

/-- The wheel seat a load channel serves; none for REF. -/
def wheelOfChannel (c : ChannelNo) : Option WheelNo := if h : c.val < 8 then some ⟨c.val, h⟩ else none

/-! ### Clamps -/

/-- Into the range lo to hi. -/
def clamp (lo hi x : Nat) : Nat := max lo (min hi x)

/-- The parameters a DEFINE writes (R57). -/
def paramsArg (a : DefineArgs) (policy : Policy) : Params :=
  { policy := policy
    nominalLoad := clamp 1 1023 a.nominalLoad.toNat
    warnMargin := clamp 1 50 a.warnMargin.toNat
    rollWear := a.rollWear.toNat
    lossFloor := clamp 0 1023 a.lossFloor.toNat
    overloadCeiling := clamp 0 1023 a.overloadCeiling.toNat
    contactLevel := clamp 0 1023 a.contactLevel.toNat
    engageDelay := a.engageDelay.toNat
    blankingTime := a.blankingTime.toNat
    filterTime := clamp 1 1000 a.filterTime.toNat
    fast := a.fast != 0
    maxCutTime := a.maxCutTime.toNat }

/-- The infeed of DRESS: 0 is taken as 1, above 2,000 as 2,000 (R42). -/
def infeedArg (x : Half) : Nat := clamp 1 2000 x.toNat

/-- A limit of CHECK: above 1023 is taken as 1023 (R146). -/
def probeLimitArg (x : Half) : Nat := min 1023 x.toNat

/-- The duration of CHECK in steps of 10 ms: 0 is taken as 1 (R146). -/
def durationArg (b : Byte) : Nat := max 1 b.toNat

/-- The averaging count SET SENSE writes: the largest power of two not above the count carried, within 1 to 128 (R123). -/
def countArg (b : Byte) : Nat :=
  let n := b.toNat
  if n < 2 then 1 else if n < 4 then 2 else if n < 8 then 4 else if n < 16 then 8
  else if n < 32 then 16 else if n < 64 then 32 else if n < 128 then 64 else 128

/-- The watchdog period of a selector; beyond the table its last row (R175). -/
def periodArg (b : Byte) : WatchdogPeriod :=
  if b = 0 then .off else if b = 1 then .ms50 else if b = 2 then .ms200 else .ms1000

/-- The stretch time of a selector; beyond the table its last row (R175). -/
def stretchArg (b : Byte) : StretchTime :=
  if b = 0 then .ms500 else if b = 1 then .ms1000 else if b = 2 then .ms2000 else .ms4000

/-- The period in ticks; none for OFF (R173). -/
def WatchdogPeriod.ticks : WatchdogPeriod → Option Nat
  | .off => none
  | .ms50 => some 50
  | .ms200 => some 200
  | .ms1000 => some 1000

/-- The stretch time in ticks (R160). -/
def StretchTime.ticks : StretchTime → Nat
  | .ms500 => 500
  | .ms1000 => 1000
  | .ms2000 => 2000
  | .ms4000 => 4000

/-- The effective filter time: the filter time, or with FAST half of it rounded down, at least 1 ms (R54). -/
def Params.effectiveFilter (p : Params) : Nat := if p.fast then max 1 (p.filterTime / 2) else p.filterTime

/-- An optional limit: present with the value carried if its presence bit is set (R20, R21). -/
def limitArg (presence : Byte) (bit : Nat) (value : Nat) : Option Nat :=
  if presence.getLsbD bit then some value else none

/-! ### Encodings of R184 -/

/-- A number as one byte of a report. -/
def byte1 (n : Nat) : List Byte := [BitVec.ofNat 8 n]

/-- A number as two bytes, most significant first. -/
def byte2 (n : Nat) : List Byte := [BitVec.ofNat 8 (n / 256), BitVec.ofNat 8 n]

/-- A number as three bytes, most significant first. -/
def byte3 (n : Nat) : List Byte := [BitVec.ofNat 8 (n / 65536), BitVec.ofNat 8 (n / 256), BitVec.ofNat 8 n]

/-- A number as four bytes, most significant first. -/
def byte4 (n : Nat) : List Byte :=
  [BitVec.ofNat 8 (n / 16777216), BitVec.ofNat 8 (n / 65536), BitVec.ofNat 8 (n / 256), BitVec.ofNat 8 n]

/-- A set of bits as one byte, bit 0 first. -/
def bits8 (b0 b1 b2 b3 b4 b5 b6 b7 : Bool) : Byte :=
  BitVec.ofNat 8 (b0.toNat + 2 * b1.toNat + 4 * b2.toNat + 8 * b3.toNat + 16 * b4.toNat + 32 * b5.toNat
    + 64 * b6.toNat + 128 * b7.toNat)

/-- A group, seat or cursor: the number, or 0xFF when absent. -/
def orFF : Option Nat → Nat
  | some n => n
  | none => 0xFF

def Kind.code : Kind → Nat
  | .wheel => 1
  | .dresser => 2

def Policy.code : Policy → Nat
  | .priority => 0
  | .rotate => 1

def RecState.code : RecState → Nat
  | .available => 0
  | .chosen => 1
  | .active => 2
  | .suspect => 3
  | .held => 4
  | .spent => 5
  | .broken => 6

def Service.code : Service → Nat
  | .unbound => 0
  | .waiting => 1
  | .changing => 2
  | .running => 3
  | .due => 4
  | .halted => 5

def Phase.code : Phase → Nat
  | .idle => 0
  | .engage => 1
  | .cut => 2
  | .settle => 3

def BreakCause.code : BreakCause → Nat
  | .loss => 1
  | .overload => 2
  | .overtime => 3
  | .contact => 4
  | .probe => 5

def ProbeResult.code : ProbeResult → Nat
  | .none => 0
  | .pass => 1
  | .low => 2
  | .high => 3
  | .noData => 4
  | .aborted => 5

def ResetCause.code : ResetCause → Nat
  | .power => 1
  | .pin => 2
  | .restart => 3

def WatchdogPeriod.code : WatchdogPeriod → Nat
  | .off => 0
  | .ms50 => 1
  | .ms200 => 2
  | .ms1000 => 3

def StretchTime.code : StretchTime → Nat
  | .ms500 => 0
  | .ms1000 => 1
  | .ms2000 => 2
  | .ms4000 => 3

/-- The value a reply code is sent as (R182). -/
def ReplyCode.code : ReplyCode → Nat
  | .done => 0x00
  | .dresserSkipped => 0x01
  | .endOfTable => 0x02
  | .unknownTool => 0x10
  | .duplicate => 0x11
  | .tableFull => 0x12
  | .listFull => 0x13
  | .noGroup => 0x14
  | .wrongKind => 0x15
  | .inUse => 0x16
  | .badState => 0x17
  | .notEligible => 0x18
  | .noTool => 0x19
  | .checkBusy => 0x1A
  | .badArg => 0x1B

/-- The refusal codes (R179): every code but the three success codes. -/
def ReplyCode.isRefusal : ReplyCode → Bool
  | .done | .dresserSkipped | .endOfTable => false
  | .unknownTool | .duplicate | .tableFull | .listFull | .noGroup | .wrongKind | .inUse | .badState
  | .notEligible | .noTool | .checkBusy | .badArg => true

end Sys2Proof.Machine
end

