-- ==== Sys2Proof/Machine/Flags.lean ====
section
/-! DEFINITION. Everything the part computes as a flag: the ended set and the warned flag of a record (R9, R49, R50), the
lit condition, the outputs PERMIT, LAMP and nATTN (R96, R154, R158, R159) and the status byte (R164). -/

namespace Sys2Proof.Machine

/-! ### The ended set (R9) -/

/-- A counted measure is ended when it is checked and its used value has reached its limit. -/
def reached (used : Nat) : Option Nat → Bool
  | some limit => decide (limit ≤ used)
  | none => false

/-- The ended measures of a record, found from its measures (R9). -/
def endedOf (r : ToolRecord) : EndedSet where
  parts := reached r.partsUsed r.partsLimit
  wear  := reached r.wearUsed r.wearLimit
  dress := reached r.dressUsed r.dressLimit
  stock := match r.stockFloor with
    | some floor => decide (r.stockNow ≤ floor)
    | none => false

/-- The set has no member. -/
def EndedSet.isEmpty (e : EndedSet) : Bool := !(e.parts || e.wear || e.dress || e.stock)

/-- The set `e` has a member that `old` has not: a new end (R10). -/
def EndedSet.gains (e old : EndedSet) : Bool :=
  (e.parts && !old.parts) || (e.wear && !old.wear) || (e.dress && !old.dress) || (e.stock && !old.stock)

/-! ### The warned flag (R49, R50) -/

/-- A checked counted measure that has not ended is within the margin M (R49). -/
def countedWithin (used : Nat) (margin : Nat) : Option Nat → Bool
  | some limit => decide (used < limit) && decide ((limit - used) * 100 ≤ limit * margin)
  | none => false

/-- A checked STOCK measure that has not ended is within the margin M (R49). -/
def stockWithin (now start : Nat) (margin : Nat) : Option Nat → Bool
  | some floor => decide (floor < now) && decide ((now - floor) * 100 ≤ (start - floor) * margin)
  | none => false

/-- The computed warning; no for a record without a group (R49). -/
def computedWarning (r : ToolRecord) : Option Nat → Bool
  | some m =>
    countedWithin r.partsUsed m r.partsLimit || countedWithin r.wearUsed m r.wearLimit
      || countedWithin r.dressUsed m r.dressLimit || stockWithin r.stockNow r.stockStart m r.stockFloor
  | none => false

/-- What caused a recomputation (R50). -/
inductive RecomputeBy where
  | charge | command
deriving DecidableEq, Repr

/-- The table's recomputation of the ended set and the warned flag, `margin` being the warn margin of the record's group
(R10, R50): a charge can raise the warned flag and not lower it. -/
def recompute (how : RecomputeBy) (margin : Option Nat) (r : ToolRecord) : ToolRecord :=
  { r with
    ended := endedOf r
    warned := match how with
      | .charge => r.warned || computedWarning r margin
      | .command => computedWarning r margin }

/-! ### Notice flags (R152) -/

/-- The notices a seat can have. -/
inductive SeatNotice where
  | warn | spent | change | wait | breakage | check | foreign
deriving DecidableEq, Repr

/-- Raising a flag sets it; raising one already set leaves it set. -/
def SeatFlags.raise (f : SeatFlags) : SeatNotice → SeatFlags
  | .warn => { f with warn := true }
  | .spent => { f with spent := true }
  | .change => { f with change := true }
  | .wait => { f with wait := true }
  | .breakage => { f with breakage := true }
  | .check => { f with check := true }
  | .foreign => { f with foreign := true }

/-- Some flag of the seat is set. -/
def SeatFlags.any (f : SeatFlags) : Bool :=
  f.warn || f.spent || f.change || f.wait || f.breakage || f.check || f.foreign

/-- Some flag of the notice set is set (R154). -/
def Notices.any (n : Notices) : Bool :=
  n.device.reset || n.device.hold || n.device.sense || (List.finRange 16).any fun q => n.seats[q].any

/-! ### Outputs -/

/-- RUNNING or DUE: a seat in service (R75). -/
def Service.inService : Service → Bool
  | .running | .due => true
  | .unbound | .waiting | .changing | .halted => false

/-- RUNNING, DUE or HALTED: a seat that holds a mounted tool (R42, R46, R89). -/
def Service.holdsTool : Service → Bool
  | .running | .due | .halted => true
  | .unbound | .waiting | .changing => false

/-- PERMITs is high exactly when the link is not in HOLD, the station has a bound seat, and every bound seat of it is
RUNNING or DUE (R96). -/
def permitLevel (s : State) (st : StationNo) : Bool :=
  !s.link.hold && (seatsOf st).any (fun q => s.seats[q].service != .unbound)
    && (seatsOf st).all (fun q => s.seats[q].service == .unbound || s.seats[q].service.inService)

/-- The lit condition of a station (R158). -/
def litCondition (s : State) (st : StationNo) : Bool :=
  s.link.hold || (seatsOf st).any fun q => s.seats[q].service == .halted || s.seats[q].service == .waiting

/-- LAMPs is lit while the lit condition holds or the stretch timer runs (R159). -/
def lampLevel (s : State) (st : StationNo) : Bool := litCondition s st || s.stations[st].stretch.isSome

/-- nATTN is low exactly when at least one notice flag is set (R154). -/
def nATTNLevel (s : State) : Bool := !s.notices.any

/-! ### The status byte (R164) -/

/-- At least one seat is in the service state named. -/
def someSeat (s : State) (v : Service) : Bool := (List.finRange 16).any fun q => s.seats[q].service == v

/-- A reply is stored (R171). -/
def ReplyBuffer.isStored : ReplyBuffer → Bool
  | .stored _ => true
  | .empty | .pending _ => false

/-- An accepted command has not yet completed (R171). -/
def ReplyBuffer.isPending : ReplyBuffer → Bool
  | .pending _ => true
  | .empty | .stored _ => false

/-- The status byte: ATTN, REPLY, BUSY, LINKERR, HOLD, HALT, WAIT, SENSEF from bit 7 to bit 0. -/
def statusByte (s : State) : Byte :=
  bits8 s.scan.fault (someSeat s .waiting) (someSeat s .halted) s.link.hold s.link.linkErr s.link.buffer.isPending
    s.link.buffer.isStored s.notices.any

end Sys2Proof.Machine
end

