-- ==== Sys2Proof/Machine/Ops.lean ====
section
/-! DEFINITION. The named operations over the state that the commands and events share: the table (chapter 1), charges and
the close of a cut (chapter 2), selection and grants (chapter 3), leaving service and changes (chapters 4 and 5),
suspicions and the ends of probe checks (chapter 7), the outputs at the end of a step (R97, R158), and reset (R178). -/

namespace Sys2Proof.Machine

/-! ### Reading and writing the state -/

/-- The record of a tool number. -/
def State.find (s : State) (n : Nat) : Option ToolRecord := s.table.find? fun r => r.number == n

/-- The record whose seat field names the seat (R3, R73). -/
def State.holder (s : State) (q : SeatNo) : Option ToolRecord := s.table.find? fun r => r.seat == some q

/-- Write a record back at its tool number. -/
def State.putRecord (s : State) (r : ToolRecord) : State :=
  { s with table := s.table.map fun x => if x.number = r.number then r else x }

/-- Write a group. -/
def State.setGroup (s : State) (g : GroupNo) (x : Option Group) : State := { s with groups := s.groups.set g x }

/-- Write a seat. -/
def State.setSeat (s : State) (q : SeatNo) (x : Seat) : State := { s with seats := s.seats.set q x }

/-- Write the service state of a seat. -/
def State.setService (s : State) (q : SeatNo) (v : Service) : State := s.setSeat q { s.seats[q] with service := v }

/-- Write a wheel seat. -/
def State.setWheel (s : State) (w : WheelNo) (x : Wheel) : State := { s with wheels := s.wheels.set w x }

/-- Write a station. -/
def State.setStation (s : State) (st : StationNo) (x : Station) : State := { s with stations := s.stations.set st x }

/-- Write the load scan. -/
def State.setScan (s : State) (x : Scan) : State := { s with scan := x }

/-- Write the command link. -/
def State.setLink (s : State) (x : Link) : State := { s with link := x }

/-- Write the notice set. -/
def State.setNotices (s : State) (x : Notices) : State := { s with notices := x }

/-- Write the output pins. -/
def State.setPins (s : State) (x : Pins) : State := { s with pins := x }

/-- Raise a notice at a seat (R152). -/
def State.raise (s : State) (q : SeatNo) (n : SeatNotice) : State :=
  s.setNotices { s.notices with seats := s.notices.seats.set q (s.notices.seats[q].raise n) }

/-- Raise a notice at the seat a record names, if it names one. -/
def State.raiseAt (s : State) (q : Option SeatNo) (n : SeatNotice) : State :=
  match q with
  | some q => s.raise q n
  | none => s

/-- Raise the device notice SENSE (R131). -/
def State.raiseSense (s : State) : State :=
  s.setNotices { s.notices with device := { s.notices.device with sense := true } }

/-- Raise the device notice HOLD (R174). -/
def State.raiseHold (s : State) : State :=
  s.setNotices { s.notices with device := { s.notices.device with hold := true } }

/-- The group a seat is bound to, if it is bound and the group is defined. -/
def State.groupOf (s : State) (q : SeatNo) : Option Group :=
  match s.seats[q].group with
  | some g => s.groups[g]
  | none => none

/-- The parameters of the group of a wheel seat (R133). -/
def State.wheelParams (s : State) (w : WheelNo) : Option Params := (s.groupOf (seatOfWheel w)).map (·.params)

/-- The warn margin of a record's group (R49). -/
def State.marginOf (s : State) (r : ToolRecord) : Option Nat :=
  match r.group with
  | some g => s.groups[g].map (·.params.warnMargin)
  | none => none

/-- The number of seats bound to a group (R73). -/
def State.boundSeats (s : State) (g : GroupNo) : Nat :=
  ((List.finRange 16).filter fun q => s.seats[q].group == some g).length

/-! ### The tool table -/

/-- Insert a record at the place its tool number gives it (R1). -/
def insertRecord (r : ToolRecord) : List ToolRecord → List ToolRecord
  | [] => [r]
  | x :: xs => if r.number < x.number then r :: x :: xs else x :: insertRecord r xs

/-- Remove the record of a tool number (R31). -/
def State.removeRecord (s : State) (n : Nat) : State := { s with table := s.table.filter fun r => r.number != n }

/-- Add a record (R1). -/
def State.addRecord (s : State) (r : ToolRecord) : State := { s with table := insertRecord r s.table }

/-- The record's seat is charged while it is mounted: ACTIVE or SUSPECT (R15). -/
def RecState.mounted : RecState → Bool
  | .active | .suspect => true
  | .available | .chosen | .held | .spent | .broken => false

/-- The mounted record of a seat: the ACTIVE record of a RUNNING or DUE seat, or the SUSPECT record of a HALTED seat, to
which every charge of the seat goes (R37, R43, R46). -/
def State.mountedAt (s : State) (q : SeatNo) : Option ToolRecord :=
  match s.holder q with
  | some r => if r.state.mounted then some r else none
  | none => none

/-- A write of measures (R10): the record `new`, which differs from `old` in measures and limits alone, is recomputed and
stored; a new end of an ACTIVE record raises SPENT at its seat, and a warned flag going from no to yes on an ACTIVE or
SUSPECT record raises WARN (R52). Answers whether the seat controller is told of a new end. -/
def measureWrite (s : State) (how : RecomputeBy) (old new : ToolRecord) : State × Bool :=
  let r := recompute how (s.marginOf old) new
  let told := r.ended.gains old.ended && old.state == .active
  let s := s.putRecord r
  let s := if told then s.raiseAt old.seat .spent else s
  let s := if !old.warned && r.warned && old.state.mounted then s.raiseAt old.seat .warn else s
  (s, told)

/-! ### Charges (chapter 2) -/

/-- The wear charge of a total load at a nominal load (R38). -/
def chargeWear (total nominal : Nat) (r : ToolRecord) : ToolRecord :=
  { r with
    wearUsed := min 16777215 (r.wearUsed + total / nominal)
    wearCarry := total - total / nominal * nominal }

/-- The part charge: parts used rises by one, saturating (R46). -/
def chargePart (r : ToolRecord) : ToolRecord := { r with partsUsed := min 16777215 (r.partsUsed + 1) }

/-- The dress charge: dress used rises by one, saturating, and stock now falls, stopping at 0 (R43, R44). -/
def chargeDress (stock : Nat) (r : ToolRecord) : ToolRecord :=
  { r with dressUsed := min 65535 (r.dressUsed + 1), stockNow := r.stockNow - stock }

/-- The phases in which a cut is open (R37). -/
def Phase.cutOpen : Phase → Bool
  | .engage | .cut => true
  | .idle | .settle => false

/-- The close of a cut (R37, R38): the cut timer stops, the accumulator returns to 0, and its load is charged to the
record that holds the seat, at the nominal load of the seat's group (R39). That this holds at a HALTED seat too, where R141
gives a redefinition from the seat's release, is the model's choice (log entry 25). Answers whether the seat controller is
told of a new end. -/
def closeCut (s : State) (w : WheelNo) : State × Bool :=
  let load := s.wheels[w].accumulator
  let s := s.setWheel w { s.wheels[w] with accumulator := 0, cutTimer := none }
  match s.mountedAt (seatOfWheel w), s.wheelParams w with
  | some r, some p => measureWrite s .charge r (chargeWear (load + r.wearCarry) p.nominalLoad r)
  | _, _ => (s, false)

/-! ### Selection and grants (chapter 3) -/

/-- A record is eligible when it is AVAILABLE, is a member of a group and has no ended measure (R11); here as a member
of the group `g`. -/
def ToolRecord.eligibleIn (r : ToolRecord) (g : GroupNo) : Bool :=
  r.state == .available && r.group == some g && r.ended.isEmpty

/-- A member named by its tool number is eligible. -/
def State.eligible (s : State) (g : GroupNo) (n : Nat) : Bool :=
  match s.find n with
  | some r => r.eligibleIn g
  | none => false

/-- The warned flag of a tool. -/
def State.warnedTool (s : State) (n : Nat) : Bool :=
  match s.find n with
  | some r => r.warned
  | none => false

/-- The group has an eligible member (R70, R112). -/
def State.hasEligible (s : State) (g : GroupNo) : Bool :=
  match s.groups[g] with
  | some grp => grp.members.any (s.eligible g)
  | none => false

/-- The member list with its indexes, in the order of the search (R66). -/
def searchOrder (grp : Group) : List (Nat × Nat) :=
  let all := grp.members.zipIdx.map fun p => (p.2, p.1)
  match grp.params.policy, grp.cursor with
  | .rotate, some c => all.drop (c + 1) ++ all.take (c + 1)
  | _, _ => all

/-- The two passes of the selection: an eligible member that is not the excluded tool, unwarned members first. Answers
the member's index and tool number (R66). -/
def choose (s : State) (g : GroupNo) (grp : Group) (excluded : Option Nat) : Option (Nat × Nat) :=
  let fit := fun p : Nat × Nat => s.eligible g p.2 && excluded != some p.2
  match (searchOrder grp).find? (fun p => fit p && !s.warnedTool p.2) with
  | some p => some p
  | none => (searchOrder grp).find? fit

/-- The cursor under ROTATE is set to an index; under PRIORITY it stays none (R63). -/
def Group.moveCursor (grp : Group) (i : Nat) : Group :=
  match grp.params.policy with
  | .rotate => { grp with cursor := some i }
  | .priority => grp

/-- Selection takes the member at index `i` for the seat (R67). -/
def takeMember (s : State) (q : SeatNo) (g : GroupNo) (grp : Group) (i n : Nat) : State :=
  match s.find n with
  | some r =>
    (((s.putRecord { r with state := .chosen, seat := some q }).setGroup g (some (grp.moveCursor i))).setService q
      .changing).raise q .change
  | none => s

/-- Selection takes no member: the seat joins the wait queue at its tail (R68). -/
def joinQueue (s : State) (q : SeatNo) (g : GroupNo) (grp : Group) : State :=
  ((s.setGroup g (some { grp with queue := grp.queue ++ [q] })).setService q .waiting).raise q .wait

/-- Selection for a seat in the group it is bound to (R65 to R68). -/
def select (s : State) (q : SeatNo) (excluded : Option Nat) : State :=
  match s.seats[q].group with
  | some g =>
    match s.groups[g] with
    | some grp =>
      match choose s g grp excluded with
      | some (i, n) => takeMember s q g grp i n
      | none => joinQueue s q g grp
    | none => s
  | none => s

/-- Grants (R70): while the wait queue is not empty and the group has an eligible member, the seat at the head of the
queue is removed from it and selection runs for it. At most `fuel` seats are served. -/
def grantLoop : Nat → State → GroupNo → State
  | 0, s, _ => s
  | fuel + 1, s, g =>
    match s.groups[g] with
    | some grp =>
      match grp.queue with
      | q :: rest =>
        if s.hasEligible g then
          grantLoop fuel (select (s.setGroup g (some { grp with queue := rest })) q none) g
        else s
      | [] => s
    | none => s

/-- The grants of a group: as many as its wait queue holds seats. -/
def grant (s : State) (g : GroupNo) : State :=
  match s.groups[g] with
  | some grp => grantLoop grp.queue.length s g
  | none => s

/-- The table informs the arbiter that a tool may have become eligible in its group (R11, R70). -/
def inform (s : State) (n : Nat) : State :=
  match s.find n with
  | some r =>
    match r.group with
    | some g => if r.eligibleIn g then grant s g else s
    | none => s
  | none => s

/-- A seat gives up its tool without condemning it: to AVAILABLE if its ended set is empty and to SPENT otherwise, the
seat field cleared, and the arbiter informed (R13). The request is taken for an ACTIVE or a CHOSEN record (R12). -/
def returnRecord (s : State) (r : ToolRecord) : State :=
  match r.state with
  | .active | .chosen =>
    inform (s.putRecord { r with state := if r.ended.isEmpty then .available else .spent, seat := none }) r.number
  | .available | .suspect | .held | .spent | .broken => s

/-! ### Probe checks and suspicions (chapter 7) -/

/-- A probe check ends: no longer in flight, its result stored, CHECK raised (R150, steps 1 and 2). -/
def finishCheck (s : State) (w : WheelNo) (result : ProbeResult) : State :=
  (s.setWheel w { s.wheels[w] with check := none, lastResult := result }).raise (seatOfWheel w) .check

/-- A probe check in flight ends ABORTED (R149). -/
def abortCheck (s : State) (w : WheelNo) : State :=
  if s.wheels[w].check.isSome then finishCheck s w .aborted else s

/-- The loss, overload and contact timers of a wheel seat are stopped (R136). -/
def stopFilters (s : State) (w : WheelNo) : State :=
  s.setWheel w { s.wheels[w] with loss := none, overload := none, contact := none }

/-- A suspicion is raised at a wheel seat (R139). A record that is not ACTIVE is left as it is, and the suspicion has no
effect (R12). PERMIT is driven at the end of the step (R97). -/
def suspicion (s : State) (w : WheelNo) (cause : BreakCause) : State :=
  let q := seatOfWheel w
  match s.holder q with
  | some r =>
    if r.state = .active then
      let s := (s.putRecord { r with state := .suspect, cause := some cause }).setService q .halted
      abortCheck (stopFilters (s.raise q .breakage) w) w
    else s
  | none => s

/-- A probe check ends with a result of its own; LOW and HIGH raise a suspicion with the cause PROBE (R150). -/
def endCheck (s : State) (w : WheelNo) (result : ProbeResult) : State :=
  let s := finishCheck s w result
  match result with
  | .low | .high => suspicion s w .probe
  | .none | .pass | .noData | .aborted => s

/-! ### Leaving service and changing (R89, R98, R101) -/

/-- A wheel seat leaves service (R89): an open cut is closed and charged, the phase goes to IDLE, cut-seen is cleared, a
probe check ends ABORTED and the supervision timers are reset. The steps do not apply to a dresser seat. -/
def leaveService (s : State) (q : SeatNo) : State :=
  match wheelOf q with
  | some w =>
    let s := if s.wheels[w].phase.cutOpen then (closeCut s w).1 else s
    let s := s.setWheel w { s.wheels[w] with phase := .idle, phaseTimer := none, cutSeen := false }
    stopFilters (abortCheck s w) w
  | none => s

/-- The record that holds a seat goes to the state given, and its seat field is cleared, if it is in the state expected
(R12). -/
def takeOff (s : State) (q : SeatNo) (expected next : RecState) : State :=
  match s.holder q with
  | some r => if r.state = expected then s.putRecord { r with state := next, seat := none } else s
  | none => s

/-- A change begins at a seat (R101). -/
def beginChange (s : State) (q : SeatNo) : State := select (takeOff (leaveService s q) q .active .spent) q none

/-- The seat controller is told of a new end of the ACTIVE record at a seat (R98). -/
def toolEnded (s : State) (q : SeatNo) : State :=
  match s.seats[q].service with
  | .running => if s.stations[stationOf q].partOpen then s.setService q .due else beginChange s q
  | .due | .unbound | .waiting | .changing | .halted => s

/-- The report of a measure write reaches the seat controller if there is one (R10, R98). -/
def tell (p : State × Bool) (q : SeatNo) : State := if p.2 then toolEnded p.1 q else p.1

/-! ### The watchdog (R173) -/

/-- The watchdog timer is restarted with count 0, if the period is not OFF and the link is not in HOLD. -/
def Link.feed (l : Link) : Link :=
  if l.hold then l else { l with watchdog := if l.period = .off then none else some 0 }

/-! ### The end of a step -/

/-- A lit condition that did not hold before the step and holds after it begins: the stretch timer of the station starts,
or starts afresh, with the stretch time in force (R158, R159). -/
def startStretch (before after : State) : Vector Station 4 :=
  Vector.ofFn fun st =>
    if !litCondition before st && litCondition after st then
      { after.stations[st] with stretch := some { count := 0, time := after.notices.stretch.ticks } }
    else after.stations[st]

/-- The levels the part drives on PERMIT, LAMP and nATTN (R96, R154, R159). -/
def drivenPins (s : State) : Pins :=
  { permit := Vector.ofFn (permitLevel s), lamp := Vector.ofFn (lampLevel s), nATTN := nATTNLevel s, sdo := s.pins.sdo }

/-- The end of a step that began in `before`: lit conditions that begin start their stretch timers, and the outputs are
driven from the states as they stand (R97, R158). -/
def commit (before after : State) : State :=
  let s := { after with stations := startStretch before after }
  { s with pins := drivenPins s }

/-- A step of a part that is not held in reset; while nRST holds it in reset nothing but a reset acts on it (R178; log
entry 10). -/
def whenRunning (s : State) (f : State → State) : Host.Outcome State Fault Refusal :=
  .next (if s.nRST then commit s (f s) else s)

/-! ### Reset (R178) -/

/-- The part after a reset with the cause given and the level of nRST given: every block as its chapter says, the queue
and the model's own counter left alone (log entry 20). Of a frame that the reset abandons, what SDO has carried is not
kept: the model's choice (log entry 17). -/
def resetTo (s : State) (cause : ResetCause) (nRST : Bool) : State :=
  { State.reset with
    link := { State.reset.link with cause := cause }
    nRST := nRST
    freeCount := s.freeCount
    pending := s.pending }

/-! ### Completing a command (R169, R171) -/

/-- The command may complete now: it is the one in execution, or none is in execution (log entry 7). -/
def Link.mayComplete (l : Link) (i : Instr) : Bool :=
  match l.buffer with
  | .pending j => i == j
  | .empty | .stored _ => true

/-- A step that completes the command `i`: its owner acts and its answer is stored as the reply (R169). -/
def complete (i : Instr) (f : State → State × Reply) (s : State) : Host.Outcome State Fault Refusal :=
  whenRunning s fun s =>
    if s.link.mayComplete i then
      let p := f s
      p.1.setLink { p.1.link with buffer := .stored p.2 }
    else s

/-- A reply code with no data. -/
def reply (c : ReplyCode) : Reply := { code := c, data := [] }

/-- The reply DONE with a report. -/
def report (data : List Byte) : Reply := { code := .done, data := data }

end Sys2Proof.Machine
end

