-- ==== Sys2Proof/Machine/Reports.lean ====
section
/-! DEFINITION. The byte layouts of the reports (R183 to R186). -/

namespace Sys2Proof.Machine

/-- The tool report, 33 bytes (R185). -/
def toolReport (r : ToolRecord) : List Byte :=
  byte2 r.number ++ byte1 r.kind.code ++ byte1 r.state.code ++ byte1 (orFF (r.group.map (·.val)))
    ++ byte1 (orFF (r.seat.map (·.val)))
    ++ [bits8 r.partsLimit.isSome r.wearLimit.isSome r.dressLimit.isSome r.stockFloor.isSome false false false false]
    ++ byte3 r.partsUsed ++ byte3 (r.partsLimit.getD 0) ++ byte3 r.wearUsed ++ byte3 (r.wearLimit.getD 0)
    ++ byte2 r.dressUsed ++ byte2 (r.dressLimit.getD 0) ++ byte2 r.stockNow ++ byte2 r.stockStart
    ++ byte2 (r.stockFloor.getD 0) ++ byte2 r.wearCarry
    ++ [bits8 r.ended.parts r.ended.wear r.ended.dress r.ended.stock false false false r.warned]
    ++ byte1 (match r.cause with | some c => c.code | none => 0)

/-- The byte that shows FAST: 0 for no, and for yes a byte that is not 0 and that the data sheet does not fix (log
entry 9). -/
def fastByte (fast : Bool) : List Byte :=
  if fast then [if Config.fastYesByte = 0 then 1 else Config.fastYesByte] else [0]

/-- The group report: the DEFINE layout as written, the cursor, the number of bound seats, the member list and the wait
queue (R64, R185). -/
def groupReport (g : GroupNo) (grp : Group) (bound : Nat) : List Byte :=
  byte1 g.val ++ byte1 grp.kind.code ++ byte1 grp.params.policy.code ++ byte2 grp.params.nominalLoad
    ++ byte1 grp.params.warnMargin ++ byte1 grp.params.rollWear ++ byte2 grp.params.lossFloor
    ++ byte2 grp.params.overloadCeiling ++ byte2 grp.params.contactLevel ++ byte1 grp.params.engageDelay
    ++ byte1 grp.params.blankingTime ++ byte2 grp.params.filterTime ++ fastByte grp.params.fast
    ++ byte2 grp.params.maxCutTime
    ++ byte1 (orFF grp.cursor) ++ byte1 bound
    ++ byte1 grp.members.length ++ grp.members.flatMap byte2
    ++ byte1 grp.queue.length ++ grp.queue.flatMap fun q => byte1 q.val

/-- The seat report, 8 bytes (R81, R185). A dresser seat shows phase 0 and result 0, and the cut-seen flag of its paired
wheel seat. -/
def seatReport (s : State) (q : SeatNo) : List Byte :=
  byte1 q.val ++ byte1 s.seats[q].service.code
    ++ byte1 (match wheelOf q with | some w => s.wheels[w].phase.code | none => 0)
    ++ byte1 (orFF (s.seats[q].group.map (·.val)))
    ++ byte2 (match s.holder q with | some r => r.number | none => 0)
    ++ [bits8 s.wheels[pairedWheel q].cutSeen s.stations[stationOf q].partOpen false false false false false false]
    ++ byte1 (match wheelOf q with | some w => s.wheels[w].lastResult.code | none => 0)

/-- The load report, 5 bytes (R125, R185). -/
def loadReport (c : ChannelNo) (ch : Channel) : List Byte :=
  byte1 c.val ++ byte2 ch.average ++ byte1 ch.fresh.toNat ++ byte1 ch.count

/-- A seat's byte of the notices report; bits 4 to 6 are 0 for a dresser seat (R155, R185). -/
def seatFlagsByte (q : SeatNo) (f : SeatFlags) : Byte :=
  let wheel := decide (q.val % 4 < 2)
  bits8 f.warn f.spent f.change f.wait (wheel && f.breakage) (wheel && f.check) (wheel && f.foreign) false

/-- The notices report, 17 bytes (R155, R185). -/
def noticesReport (n : Notices) : List Byte :=
  ((List.finRange 16).map fun q => seatFlagsByte q n.seats[q])
    ++ [bits8 n.device.reset n.device.hold n.device.sense false false false false false]

/-- The ident report, 15 bytes (R177, R185). -/
def identReport (s : State) : List Byte :=
  byte2 0x4E5A ++ byte2 6120 ++ byte1 1 ++ byte1 128 ++ byte1 32 ++ byte1 16 ++ byte1 s.link.cause.code
    ++ byte4 s.link.millis.toNat ++ byte1 s.link.period.code ++ byte1 s.notices.stretch.code

end Sys2Proof.Machine
end

