-- ==== Sys2Proof/Machine/ToolCommands.lean ====
section
/-! DEFINITION. The commands of the tool table (chapter 1): ENROL, EDIT, RETIRE, QUERY, NEXT, LOCK, UNLOCK. -/

namespace Sys2Proof.Machine

/-- The record an accepted ENROL inserts (R21). -/
def newRecord (n : Nat) (k : Kind) (presence : Byte) (m : Measures) : ToolRecord :=
  let r : ToolRecord :=
    { number := n, kind := k, state := .available, group := none, seat := none
      partsUsed := m.partsUsed.toNat, partsLimit := limitArg presence 0 m.partsLimit.toNat
      wearUsed := m.wearUsed.toNat, wearLimit := limitArg presence 1 m.wearLimit.toNat, wearCarry := 0
      dressUsed := m.dressUsed.toNat, dressLimit := limitArg presence 2 m.dressLimit.toNat
      stockNow := m.stockNow.toNat, stockStart := m.stockNow.toNat
      stockFloor := limitArg presence 3 m.stockFloor.toNat
      warned := false, ended := EndedSet.empty, cause := none }
  { r with ended := endedOf r, state := if (endedOf r).isEmpty then .available else .spent }

/-- ENROL: the checks of R20, then R21. -/
def enrolCommand (tool : Half) (kind presence : Byte) (m : Measures) (s : State) : State × Reply :=
  match toolArg tool, kindArg kind with
  | some n, some k =>
    if (s.find n).isSome then (s, reply .duplicate)
    else if 128 ≤ s.table.length then (s, reply .tableFull)
    else (s.addRecord (newRecord n k presence m), reply .done)
  | _, _ => (s, reply .badArg)

def execEnrol (tool : Half) (kind presence : Byte) (m : Measures) (s : State) : Host.Outcome State Fault Refusal :=
  complete (.enrol tool kind presence m) (enrolCommand tool kind presence m) s

/-- The record with the fields written that the apply mask names; a field whose apply bit is clear keeps its value and
its presence (R22). An EDIT of stock now sets stock start with it (R5). -/
def editFields (apply presence : Byte) (m : Measures) (r : ToolRecord) : ToolRecord :=
  { r with
    partsUsed := if apply.getLsbD 0 then m.partsUsed.toNat else r.partsUsed
    partsLimit := if apply.getLsbD 1 then limitArg presence 0 m.partsLimit.toNat else r.partsLimit
    wearUsed := if apply.getLsbD 2 then m.wearUsed.toNat else r.wearUsed
    wearLimit := if apply.getLsbD 3 then limitArg presence 1 m.wearLimit.toNat else r.wearLimit
    dressUsed := if apply.getLsbD 4 then m.dressUsed.toNat else r.dressUsed
    dressLimit := if apply.getLsbD 5 then limitArg presence 2 m.dressLimit.toNat else r.dressLimit
    stockNow := if apply.getLsbD 6 then m.stockNow.toNat else r.stockNow
    stockStart := if apply.getLsbD 6 then m.stockNow.toNat else r.stockStart
    stockFloor := if apply.getLsbD 7 then limitArg presence 3 m.stockFloor.toNat else r.stockFloor }

/-- The record's state goes to the one given. -/
def State.restate (s : State) (n : Nat) (v : RecState) : State :=
  match s.find n with
  | some r => s.putRecord { r with state := v }
  | none => s

/-- A CHOSEN record goes to the state given, its seat field is cleared, and selection runs again for the seat (R10, R29,
R105). -/
def reselect (s : State) (n : Nat) (v : RecState) : State :=
  match s.find n with
  | some r =>
    match r.seat with
    | some q => select (s.putRecord { r with state := v, seat := none }) q none
    | none => s.putRecord { r with state := v, seat := none }
  | none => s

/-- What an accepted EDIT does to the record's state and seat, by the state it found and the change of the ended set
(R26). -/
def editEffect (s : State) (r : ToolRecord) (gained unended : Bool) : State :=
  match r.state with
  | .available => if gained then s.restate r.number .spent else s
  | .chosen => if gained then reselect s r.number .spent else s
  | .active =>
    match r.seat with
    | some q =>
      if gained then toolEnded s q
      else if unended && s.seats[q].service == .due then s.setService q .running else s
    | none => s
  | .spent => if unended then inform (s.restate r.number .available) r.number else s
  | .suspect | .held | .broken => s

/-- EDIT: the checks of R23, then R24 and R26. -/
def editCommand (tool : Half) (apply presence : Byte) (m : Measures) (s : State) : State × Reply :=
  match toolArg tool with
  | some n =>
    match s.find n with
    | some r =>
      if r.state = .broken then (s, reply .badState)
      else
        let new := editFields apply presence m r
        let gained := (endedOf new).gains r.ended
        let unended := !r.ended.isEmpty && (endedOf new).isEmpty
        (editEffect (measureWrite s .command r new).1 r gained unended, reply .done)
    | none => (s, reply .unknownTool)
  | none => (s, reply .badArg)

def execEdit (tool : Half) (apply presence : Byte) (m : Measures) (s : State) : Host.Outcome State Fault Refusal :=
  complete (.edit tool apply presence m) (editCommand tool apply presence m) s

/-- The cursor after the removal of index `i` from a ROTATE group's list (R63). -/
def cursorAfterRemoval (i c : Nat) : Option Nat :=
  if c < i then some c else if c = 0 then none else some (c - 1)

/-- Remove a tool number from a group's member list, with the cursor adjusted (R62, R63). -/
def Group.removeMember (grp : Group) (n : Nat) : Group :=
  { grp with members := grp.members.erase n, cursor := grp.cursor.bind (cursorAfterRemoval (grp.members.idxOf n)) }

/-- Remove a record from the member list of its group, if it has one (R31, R62). -/
def leaveGroup (s : State) (r : ToolRecord) : State :=
  match r.group with
  | some g =>
    match s.groups[g] with
    | some grp => s.setGroup g (some (grp.removeMember r.number))
    | none => s
  | none => s

/-- The record is at a seat: CHOSEN, ACTIVE or SUSPECT (R3). -/
def RecState.atSeat : RecState → Bool
  | .chosen | .active | .suspect => true
  | .available | .held | .spent | .broken => false

/-- RETIRE (R31). -/
def retireCommand (tool : Half) (s : State) : State × Reply :=
  match toolArg tool with
  | some n =>
    match s.find n with
    | some r => if r.state.atSeat then (s, reply .inUse) else ((leaveGroup s r).removeRecord n, reply .done)
    | none => (s, reply .unknownTool)
  | none => (s, reply .badArg)

def execRetire (tool : Half) (s : State) : Host.Outcome State Fault Refusal :=
  complete (.retire tool) (retireCommand tool) s

/-- QUERY (R27). -/
def queryCommand (tool : Half) (s : State) : State × Reply :=
  match toolArg tool with
  | some n =>
    match s.find n with
    | some r => (s, report (toolReport r))
    | none => (s, reply .unknownTool)
  | none => (s, reply .badArg)

def execQuery (tool : Half) (s : State) : Host.Outcome State Fault Refusal :=
  complete (.query tool) (queryCommand tool) s

/-- NEXT: the record with the smallest tool number greater than t, the first such in the table's order (R1, R28). -/
def nextCommand (t : Half) (s : State) : State × Reply :=
  match s.table.find? (fun r => decide (t.toNat < r.number)) with
  | some r => (s, report (toolReport r))
  | none => (s, reply .endOfTable)

def execNext (t : Half) (s : State) : Host.Outcome State Fault Refusal := complete (.next t) (nextCommand t) s

/-- LOCK (R29). -/
def lockCommand (tool : Half) (s : State) : State × Reply :=
  match toolArg tool with
  | some n =>
    match s.find n with
    | some r =>
      match r.state with
      | .available | .spent => (s.restate n .held, reply .done)
      | .chosen => (reselect s n .held, reply .done)
      | .held => (s, reply .done)
      | .active | .suspect => (s, reply .inUse)
      | .broken => (s, reply .badState)
    | none => (s, reply .unknownTool)
  | none => (s, reply .badArg)

def execLock (tool : Half) (s : State) : Host.Outcome State Fault Refusal :=
  complete (.lock tool) (lockCommand tool) s

/-- UNLOCK (R17). -/
def unlockCommand (tool : Half) (s : State) : State × Reply :=
  match toolArg tool with
  | some n =>
    match s.find n with
    | some r =>
      if r.state = .held then
        if r.ended.isEmpty then (inform (s.restate n .available) n, reply .done)
        else (s.restate n .spent, reply .done)
      else (s, reply .badState)
    | none => (s, reply .unknownTool)
  | none => (s, reply .badArg)

def execUnlock (tool : Half) (s : State) : Host.Outcome State Fault Refusal :=
  complete (.unlock tool) (unlockCommand tool) s

end Sys2Proof.Machine
end

