-- ==== Sys2Proof/Machine/GroupCommands.lean ====
section
/-! DEFINITION. The commands of the group arbiter (chapter 3): DEFINE, LINK, UNLINK, GROUP. -/

namespace Sys2Proof.Machine

/-- A change of the nominal load clamps the wear carry of every member to the new L_nom − 1 (R41, R58). -/
def clampCarries (s : State) (g : GroupNo) (nominal : Nat) : State :=
  { s with table := s.table.map fun r => if r.group = some g then { r with wearCarry := min r.wearCarry (nominal - 1) } else r }

/-- A change of the warn margin recomputes the warned flag of every member, and raises WARN at the seat of each ACTIVE or
SUSPECT member whose flag goes from no to yes (R51, R58). -/
def rewarnMembers (s : State) (g : GroupNo) (margin : Nat) : State :=
  let newly := s.table.filter fun r =>
    r.group == some g && r.state.mounted && !r.warned && computedWarning r (some margin)
  let s := { s with
    table := s.table.map fun r => if r.group = some g then { r with warned := computedWarning r (some margin) } else r }
  newly.foldl (fun s r => s.raiseAt r.seat .warn) s

/-- A threshold set to 0 stops the timer of its condition at every wheel seat bound to the group (R136). -/
def stopDisabled (s : State) (g : GroupNo) (p : Params) : State :=
  { s with
    wheels := Vector.ofFn fun w =>
      let x := s.wheels[w]
      if s.seats[seatOfWheel w].group = some g then
        { x with
          loss := if p.lossFloor = 0 then none else x.loss
          overload := if p.overloadCeiling = 0 then none else x.overload
          contact := if p.contactLevel = 0 then none else x.contact }
      else x }

/-- A redefinition: every parameter is rewritten, and what each new value changes follows (R58). A field rewritten with
its old value has no effect. -/
def redefine (s : State) (g : GroupNo) (grp : Group) (p : Params) : State :=
  let s := s.setGroup g (some { grp with
    params := p, cursor := if p.policy = grp.params.policy then grp.cursor else none })
  let s := if p.nominalLoad = grp.params.nominalLoad then s else clampCarries s g p.nominalLoad
  let s := if p.warnMargin = grp.params.warnMargin then s else rewarnMembers s g p.warnMargin
  stopDisabled s g p

/-- A group as DEFINE makes it: member list empty, cursor none, wait queue empty (R56). -/
def newGroup (k : Kind) (p : Params) : Group := { kind := k, params := p, members := [], cursor := none, queue := [] }

/-- The group has at least one member or at least one bound seat (R55). -/
def State.groupInUse (s : State) (g : GroupNo) : Bool :=
  (match s.groups[g] with | some grp => !grp.members.isEmpty | none => false) || s.boundSeats g != 0

/-- The effect of an accepted DEFINE (R56). -/
def defineGroup (s : State) (g : GroupNo) (kind : Option Kind) (p : Params) : State :=
  match s.groups[g], kind with
  | none, none => s
  | none, some k => s.setGroup g (some (newGroup k p))
  | some _, none => s.setGroup g none
  | some grp, some k => if grp.kind = k then redefine s g grp p else s.setGroup g (some (newGroup k p))

/-- DEFINE: the checks of R55, then R56. -/
def defineCommand (a : DefineArgs) (s : State) : State × Reply :=
  match groupArg a.group, groupKindArg a.kind, policyArg a.policy with
  | some g, some kind, some policy =>
    if kind ≠ s.groups[g].map (·.kind) ∧ s.groupInUse g = true then (s, reply .inUse)
    else (defineGroup s g kind (paramsArg a policy), reply .done)
  | _, _, _ => (s, reply .badArg)

def execDefine (a : DefineArgs) (s : State) : Host.Outcome State Fault Refusal := complete (.define a) (defineCommand a) s

/-- Insert a tool number at position `p` of the member list, with the cursor adjusted (R61, R63). -/
def Group.insertMember (grp : Group) (p n : Nat) : Group :=
  { grp with
    members := grp.members.take p ++ n :: grp.members.drop p
    cursor := grp.cursor.map fun c => if p ≤ c then c + 1 else c }

/-- The writes of an accepted LINK (R61). -/
def linkRecord (s : State) (g : GroupNo) (grp : Group) (r : ToolRecord) (index : Nat) : State :=
  let linked := { r with group := some g, wearCarry := min r.wearCarry (grp.params.nominalLoad - 1) }
  let s := s.setGroup g (some (grp.insertMember (min index grp.members.length) r.number))
  let s := s.putRecord { linked with warned := computedWarning linked (some grp.params.warnMargin) }
  inform s r.number

/-- LINK: the checks of R60, then R61. -/
def linkCommand (group : Byte) (tool : Half) (index : Byte) (s : State) : State × Reply :=
  match groupArg group, toolArg tool with
  | some g, some n =>
    match s.groups[g] with
    | some grp =>
      match s.find n with
      | some r =>
        if r.group.isSome then (s, reply .duplicate)
        else if r.kind ≠ grp.kind then (s, reply .wrongKind)
        else if 12 ≤ grp.members.length then (s, reply .listFull)
        else if r.state = .broken then (s, reply .badState)
        else (linkRecord s g grp r index.toNat, reply .done)
      | none => (s, reply .unknownTool)
    | none => (s, reply .noGroup)
  | _, _ => (s, reply .badArg)

def execLink (group : Byte) (tool : Half) (index : Byte) (s : State) : Host.Outcome State Fault Refusal :=
  complete (.link group tool index) (linkCommand group tool index) s

/-- UNLINK (R62). -/
def unlinkCommand (tool : Half) (s : State) : State × Reply :=
  match toolArg tool with
  | some n =>
    match s.find n with
    | some r =>
      if r.group.isNone then (s, reply .noGroup)
      else if r.state.atSeat then (s, reply .inUse)
      else ((leaveGroup s r).putRecord { r with group := none, wearCarry := 0, warned := false }, reply .done)
    | none => (s, reply .unknownTool)
  | none => (s, reply .badArg)

def execUnlink (tool : Half) (s : State) : Host.Outcome State Fault Refusal :=
  complete (.unlink tool) (unlinkCommand tool) s

/-- GROUP (R64). -/
def groupCommand (group : Byte) (s : State) : State × Reply :=
  match groupArg group with
  | some g =>
    match s.groups[g] with
    | some grp => (s, report (groupReport g grp (s.boundSeats g)))
    | none => (s, reply .noGroup)
  | none => (s, reply .badArg)

def execGroup (group : Byte) (s : State) : Host.Outcome State Fault Refusal :=
  complete (.group group) (groupCommand group) s

end Sys2Proof.Machine
end

