-- ==== Sys2Proof/Machine/SeatCommands.lean ====
section
/-! DEFINITION. The commands of the seat controller (chapters 4 and 5): BIND, UNBIND, MOUNT, SWAP, WHERE. -/

namespace Sys2Proof.Machine

/-- BIND: the checks of R76, then R77. -/
def bindCommand (seat group : Byte) (s : State) : State × Reply :=
  match seatArg seat, groupArg group with
  | some q, some g =>
    if s.seats[q].service ≠ .unbound then (s, reply .badState)
    else
      match s.groups[g] with
      | some grp =>
        if grp.kind ≠ seatKind q then (s, reply .wrongKind)
        else (select (s.setSeat q { s.seats[q] with group := some g }) q none, reply .done)
      | none => (s, reply .noGroup)
  | _, _ => (s, reply .badArg)

def execBind (seat group : Byte) (s : State) : Host.Outcome State Fault Refusal :=
  complete (.bind seat group) (bindCommand seat group) s

/-- A cut is open on the seat; never on a dresser seat (R78, R112). -/
def State.cutOpenAt (s : State) (q : SeatNo) : Bool :=
  match wheelOf q with
  | some w => s.wheels[w].phase.cutOpen
  | none => false

/-- A seat leaves the wait queue of its group, wherever it stands (R69, R78). -/
def leaveQueue (s : State) (q : SeatNo) : State :=
  match s.seats[q].group with
  | some g =>
    match s.groups[g] with
    | some grp => s.setGroup g (some { grp with queue := grp.queue.filter (· != q) })
    | none => s
  | none => s

/-- The steps of an accepted UNBIND of a bound seat (R78). -/
def unbindSeat (s : State) (q : SeatNo) : State :=
  let s := (leaveQueue (leaveService s q) q).setSeat q { service := .unbound, group := none }
  match s.holder q with
  | some r => returnRecord s r
  | none => s

/-- UNBIND (R78). -/
def unbindCommand (seat : Byte) (s : State) : State × Reply :=
  match seatArg seat with
  | some q =>
    match s.seats[q].service with
    | .unbound => (s, reply .done)
    | .waiting | .changing => (unbindSeat s q, reply .done)
    | .running | .due => if s.cutOpenAt q then (s, reply .inUse) else (unbindSeat s q, reply .done)
    | .halted => (s, reply .inUse)
  | none => (s, reply .badArg)

def execUnbind (seat : Byte) (s : State) : Host.Outcome State Fault Refusal :=
  complete (.unbind seat) (unbindCommand seat) s

/-- A seat enters RUNNING by MOUNT, in service from rest; the last probe result is kept (R91, R110). -/
def enterService (s : State) (q : SeatNo) : State :=
  let s := s.setService q .running
  match wheelOf q with
  | some w =>
    s.setWheel w { s.wheels[w] with
      phase := .idle, phaseTimer := none, cutSeen := false, accumulator := 0, cutTimer := none
      loss := none, overload := none, contact := none }
  | none => s

/-- MOUNT of the seat's chosen record (R108). -/
def mountChosen (s : State) (q : SeatNo) (r : ToolRecord) : State :=
  let s := enterService (s.putRecord { r with state := .active }) q
  if r.warned then s.raise q .warn else s

/-- The cursor of a ROTATE group is set to the index of a mounted member (R63, R109). -/
def cursorTo (s : State) (g : GroupNo) (n : Nat) : State :=
  match s.groups[g] with
  | some grp => s.setGroup g (some (grp.moveCursor (grp.members.idxOf n)))
  | none => s

/-- MOUNT of an eligible member other than the chosen record, which is displaced (R109). -/
def mountAlternative (s : State) (q : SeatNo) (g : GroupNo) (r : ToolRecord) : State :=
  let displaced := s.holder q
  let s := cursorTo (s.putRecord { r with state := .active, seat := some q }) g r.number
  let s := match displaced with
    | some d => returnRecord s d
    | none => s
  let s := enterService s q
  if r.warned then s.raise q .warn else s

/-- MOUNT: the checks of R107, then R108 or R109. -/
def mountCommand (seat : Byte) (tool : Half) (s : State) : State × Reply :=
  match seatArg seat, toolArg tool with
  | some q, some n =>
    if s.seats[q].service ≠ .changing then (s, reply .badState)
    else
      match s.find n with
      | some r =>
        if r.state = .chosen ∧ r.seat = some q then (mountChosen s q r, reply .done)
        else
          match s.seats[q].group with
          | some g => if r.eligibleIn g then (mountAlternative s q g r, reply .done) else (s, reply .notEligible)
          | none => (s, reply .notEligible)
      | none => (s, reply .unknownTool)
  | _, _ => (s, reply .badArg)

def execMount (seat : Byte) (tool : Half) (s : State) : Host.Outcome State Fault Refusal :=
  complete (.mount seat tool) (mountCommand seat tool) s

/-- The group of a seat has an eligible member (R112). -/
def State.seatHasSister (s : State) (q : SeatNo) : Bool :=
  match s.seats[q].group with
  | some g => s.hasEligible g
  | none => false

/-- The steps of an accepted SWAP (R113). -/
def swapSeat (s : State) (q : SeatNo) : State :=
  let s := leaveService s q
  match s.holder q with
  | some r => select (returnRecord s r) q (some r.number)
  | none => s

/-- SWAP: the checks of R112, then R113. -/
def swapCommand (seat : Byte) (s : State) : State × Reply :=
  match seatArg seat with
  | some q =>
    if !s.seats[q].service.inService then (s, reply .badState)
    else if s.cutOpenAt q then (s, reply .inUse)
    else if !s.seatHasSister q then (s, reply .notEligible)
    else (swapSeat s q, reply .done)
  | none => (s, reply .badArg)

def execSwap (seat : Byte) (s : State) : Host.Outcome State Fault Refusal := complete (.swap seat) (swapCommand seat) s

/-- WHERE (R81). -/
def whereCommand (seat : Byte) (s : State) : State × Reply :=
  match seatArg seat with
  | some q => (s, report (seatReport s q))
  | none => (s, reply .badArg)

def execWhereSeat (seat : Byte) (s : State) : Host.Outcome State Fault Refusal :=
  complete (.whereSeat seat) (whereCommand seat) s

end Sys2Proof.Machine
end

