-- ==== Sys2Proof/Machine/BreakageCommands.lean ====
section
/-! DEFINITION. The commands of breakage supervision (chapter 7), RELEASE, CONDEMN and CHECK, and DRESS (chapter 2). -/

namespace Sys2Proof.Machine

/-- The steps of an accepted RELEASE (R142): the record goes to ACTIVE without its cause, and the seat is judged by the
record's ended set and the station's part-open flag. -/
def releaseSeat (s : State) (q : SeatNo) : State :=
  match s.holder q with
  | some r =>
    if r.state = .suspect then
      let s := s.putRecord { r with state := .active, cause := none }
      if !r.ended.isEmpty && !s.stations[stationOf q].partOpen then beginChange s q
      else
        let s := s.setService q (if r.ended.isEmpty then .running else .due)
        match wheelOf q with
        | some w => stopFilters s w
        | none => s
    else s
  | none => s

/-- RELEASE (R142). -/
def releaseCommand (seat : Byte) (s : State) : State × Reply :=
  match seatArg seat with
  | some q => if s.seats[q].service = .halted then (releaseSeat s q, reply .done) else (s, reply .badState)
  | none => (s, reply .badArg)

def execRelease (seat : Byte) (s : State) : Host.Outcome State Fault Refusal :=
  complete (.release seat) (releaseCommand seat) s

/-- The steps of an accepted CONDEMN (R144). -/
def condemnSeat (s : State) (q : SeatNo) : State := select (takeOff (leaveService s q) q .suspect .broken) q none

/-- CONDEMN (R144). -/
def condemnCommand (seat : Byte) (s : State) : State × Reply :=
  match seatArg seat with
  | some q => if s.seats[q].service = .halted then (condemnSeat s q, reply .done) else (s, reply .badState)
  | none => (s, reply .badArg)

def execCondemn (seat : Byte) (s : State) : Host.Outcome State Fault Refusal :=
  complete (.condemn seat) (condemnCommand seat) s

/-- An accepted CHECK puts a probe check in flight and stops the contact timer (R147). -/
def startCheck (s : State) (w : WheelNo) (lo hi steps : Nat) : State :=
  s.setWheel w { s.wheels[w] with
    check := some { lo := lo, hi := hi, steps := steps, count := 0, tested := false }, contact := none }

/-- CHECK: the checks of R146, then R147. -/
def checkCommand (seat : Byte) (lo hi : Half) (duration : Byte) (s : State) : State × Reply :=
  match seatArg seat with
  | some q =>
    match wheelOf q with
    | some w =>
      if probeLimitArg hi < probeLimitArg lo then (s, reply .badArg)
      else if !s.seats[q].service.inService || s.wheels[w].phase != .idle || s.scan.fault then (s, reply .badState)
      else if s.wheels[w].check.isSome then (s, reply .checkBusy)
      else (startCheck s w (probeLimitArg lo) (probeLimitArg hi) (durationArg duration), reply .done)
    | none => (s, reply .badArg)
  | none => (s, reply .badArg)

def execCheck (seat : Byte) (lo hi : Half) (duration : Byte) (s : State) : Host.Outcome State Fault Refusal :=
  complete (.check seat lo hi duration) (checkCommand seat lo hi duration) s

/-- A dress charge on the record that holds a seat, with the change or DUE that a new end leads to (R43, R44, R98). -/
def dressSeat (s : State) (q : SeatNo) (stock : Nat) : State :=
  match s.mountedAt q with
  | some r => tell (measureWrite s .charge r (chargeDress stock r)) q
  | none => s

/-- The roll wear per dress of the group a seat is bound to (R44). -/
def State.rollWearAt (s : State) (q : SeatNo) : Nat :=
  match s.groupOf q with
  | some grp => grp.params.rollWear
  | none => 0

/-- An accepted DRESS charges the wheel, and then the paired roll if its seat is RUNNING, DUE or HALTED (R43, R44). -/
def dressWheel (s : State) (w : WheelNo) (infeed : Nat) : State × Reply :=
  let s := dressSeat s (seatOfWheel w) infeed
  let d := dresserOf w
  if s.seats[d].service.holdsTool then (dressSeat s d (s.rollWearAt d), reply .done)
  else (s, reply .dresserSkipped)

/-- DRESS: the checks of R42, then R43 and R44. -/
def dressCommand (seat : Byte) (infeed : Half) (s : State) : State × Reply :=
  match seatArg seat with
  | some q =>
    match wheelOf q with
    | some w => if s.seats[q].service.holdsTool then dressWheel s w (infeedArg infeed) else (s, reply .noTool)
    | none => (s, reply .wrongKind)
  | none => (s, reply .badArg)

def execDress (seat : Byte) (infeed : Half) (s : State) : Host.Outcome State Fault Refusal :=
  complete (.dress seat infeed) (dressCommand seat infeed) s

end Sys2Proof.Machine
end

