-- ==== Sys2Proof/Machine/LoadScan.lean ====
section
/-! DEFINITION. The load scan (chapter 6): READ LOAD, SET SENSE and the end of a conversion, with the tests that a
published average makes (R134, R148) and the reference monitor (R127, R129). -/

namespace Sys2Proof.Machine

/-- Write a channel of the load scan. -/
def State.setChannel (s : State) (c : ChannelNo) (x : Channel) : State :=
  s.setScan { s.scan with channels := s.scan.channels.set c x }

/-- READ LOAD: the report as it stands, then the fresh flag is cleared (R125). -/
def readLoadCommand (channel : Byte) (s : State) : State × Reply :=
  match channelArg channel with
  | some c =>
    (s.setChannel c { s.scan.channels[c] with fresh := false }, report (loadReport c s.scan.channels[c]))
  | none => (s, reply .badArg)

def execReadLoad (channel : Byte) (s : State) : Host.Outcome State Fault Refusal :=
  complete (.readLoad channel) (readLoadCommand channel) s

/-- SET SENSE: the clamped count is written and the channel's block emptied (R123). -/
def setSenseCommand (channel count : Byte) (s : State) : State × Reply :=
  match channelArg channel with
  | some c =>
    (s.setChannel c { s.scan.channels[c] with count := countArg count, sum := 0, held := 0 }, reply .done)
  | none => (s, reply .badArg)

def execSetSense (channel count : Byte) (s : State) : Host.Outcome State Fault Refusal :=
  complete (.setSense channel count) (setSenseCommand channel count) s

/-- A filter timer at a published average (R134): it starts or runs on where the condition is armed and the average meets
its test, and is stopped or stays stopped otherwise. -/
def judge (armedAndMet : Bool) (t : Option WatchTimer) : Option WatchTimer :=
  if armedAndMet then
    match t with
    | some t => some t
    | none => some { count := 0, fires := false }
  else none

/-- The three conditions of a wheel seat judged at a published average (R132, R133, R134). -/
def supervise (s : State) (w : WheelNo) (average : Nat) : State :=
  let x := s.wheels[w]
  let live := s.seats[seatOfWheel w].service.inService && !s.scan.fault
  match s.wheelParams w with
  | some p =>
    s.setWheel w { x with
      loss := judge (live && x.phase == .cut && decide (0 < p.lossFloor) && decide (average < p.lossFloor)) x.loss
      overload := judge (live && x.phase == .cut && decide (0 < p.overloadCeiling)
        && decide (p.overloadCeiling < average)) x.overload
      contact := judge (live && x.phase == .idle && x.check.isNone && decide (0 < p.contactLevel)
        && decide (p.contactLevel < average)) x.contact }
  | none => stopFilters s w

/-- A published average tested against the window of a probe check in flight (R148). -/
def probeTest (s : State) (w : WheelNo) (average : Nat) : State :=
  match s.wheels[w].check with
  | some c =>
    if average < c.lo then endCheck s w .low
    else if c.hi < average then endCheck s w .high
    else s.setWheel w { s.wheels[w] with check := some { c with tested := true } }
  | none => s

/-- The next channel in the round (R118). -/
def nextChannel (c : ChannelNo) : ChannelNo := ⟨(c.val + 1) % 9, by omega⟩

/-- The block takes a code; a full block publishes its mean (R120). Answers the channel and whether it published. -/
def Channel.takeCode (ch : Channel) (code : Nat) : Channel × Bool :=
  if ch.count ≤ ch.held + 1 then
    ({ ch with sum := 0, held := 0, average := (ch.sum + code) / ch.count, fresh := true }, true)
  else ({ ch with sum := ch.sum + code, held := ch.held + 1 }, false)

/-- A REF code in the band 488 to 536 (R127). -/
def inBand (code : Nat) : Bool := decide (488 ≤ code) && decide (code ≤ 536)

/-- Entry to sense fault (R129): the fault stands, SENSE is raised, every filter timer is stopped and every probe check in
flight ends ABORTED. -/
def enterFault (s : State) : State :=
  (List.finRange 8).foldl (fun s w => abortCheck (stopFilters s w) w)
    (s.setScan { s.scan with run := 0, fault := true }).raiseSense

/-- Exit from sense fault (R129). -/
def leaveFault (s : State) : State := (s.setScan { s.scan with run := 0, fault := false }).raiseSense

/-- The reference monitor takes a REF code (R127): the third code in a row that speaks against the condition changes it. -/
def monitor (s : State) (code : Nat) : State :=
  if inBand code == s.scan.fault then
    if 2 ≤ s.scan.run then (if s.scan.fault then leaveFault s else enterFault s)
    else s.setScan { s.scan with run := s.scan.run + 1 }
  else s.setScan { s.scan with run := 0 }

/-- The published average reaches supervision and the probe check of the channel's wheel seat (R121). -/
def published (s : State) (c : ChannelNo) : State :=
  match wheelOfChannel c with
  | some w => probeTest (supervise s w s.scan.channels[c].average) w s.scan.channels[c].average
  | none => s

/-- The end of a conversion of the channel that the scan pointer names (R118, R120, R127). -/
def convert (code : Nat) (s : State) : State :=
  let c := s.scan.pointer
  let taken := s.scan.channels[c].takeCode code
  let s := s.setScan { s.scan with pointer := nextChannel c, channels := s.scan.channels.set c taken.1 }
  let s := if taken.2 then published s c else s
  if c = 8 then monitor s code else s

def execConversionEnd (code : BitVec 10) (s : State) : Host.Outcome State Fault Refusal :=
  whenRunning s (convert code.toNat)

end Sys2Proof.Machine
end

