-- ==== Sys2Proof/Machine/LinkCommands.lean ====
section
/-! DEFINITION. The commands of the notice set and the command link (chapters 8 and 9): TAKE NOTICES, SET LINK, RESUME,
IDENT, RESTART, and the other resets (R178). -/

namespace Sys2Proof.Machine

/-- Every notice flag clear (R155). -/
def Notices.taken (n : Notices) : Notices :=
  { n with seats := Vector.replicate 16 SeatFlags.clear, device := { reset := false, hold := false, sense := false } }

/-- TAKE NOTICES: a snapshot of every flag, and the flags it shows set are cleared (R155). -/
def takeNoticesCommand (s : State) : State × Reply := (s.setNotices s.notices.taken, report (noticesReport s.notices))

def execTakeNotices (s : State) : Host.Outcome State Fault Refusal := complete .takeNotices takeNoticesCommand s

/-- SET LINK: the period and the stretch time are written together; outside HOLD the watchdog stops or restarts (R175). -/
def setLinkCommand (watchdog stretch : Byte) (s : State) : State × Reply :=
  let link := { s.link with period := periodArg watchdog }
  ((s.setLink link.feed).setNotices { s.notices with stretch := stretchArg stretch }, reply .done)

def execSetLink (watchdog stretch : Byte) (s : State) : Host.Outcome State Fault Refusal :=
  complete (.setLink watchdog stretch) (setLinkCommand watchdog stretch) s

/-- RESUME: the link leaves HOLD and the watchdog restarts; the permits and lamps follow at the end of the step (R176). -/
def resumeCommand (s : State) : State × Reply :=
  (if s.link.hold then s.setLink (Link.feed { s.link with hold := false }) else s, reply .done)

def execResume (s : State) : Host.Outcome State Fault Refusal := complete .resume resumeCommand s

/-- IDENT (R177). -/
def identCommand (s : State) : State × Reply := (s, report (identReport s))

def execIdent (s : State) : Host.Outcome State Fault Refusal := complete .ident identCommand s

/-- RESTART: its completion resets the part and stores no reply (R171, R178). -/
def execRestart (s : State) : Host.Outcome State Fault Refusal :=
  .next (if s.nRST && s.link.mayComplete .restart then resetTo s .restart true else s)

/-- Power-on records POWER, whatever the level of nRST; while nRST is low the part is held in reset (R178). That a part held
in reset shows the values after the reset, nATTN low among them, is the model's choice (log entry 24). -/
def execPowerOn (nRST : Bool) (s : State) : Host.Outcome State Fault Refusal := .next (resetTo s .power nRST)

/-- nRST goes low while power is good: a reset with the cause PIN, held until nRST is high again (R178). That the values
after the reset stand from this edge on, nATTN low among them, where the data sheet gives them from the end of the reset
(R157), is the model's choice (log entry 24). -/
def execNrstLow (s : State) : Host.Outcome State Fault Refusal := .next (if s.nRST then resetTo s .pin false else s)

/-- nRST returns high: a reset held on by it ends, its cause as recorded (R178). -/
def execNrstHigh (s : State) : Host.Outcome State Fault Refusal :=
  .next (if s.nRST then s else resetTo s s.link.cause true)

end Sys2Proof.Machine
end

