-- ==== Sys2Proof/Machine/Frames.lean ====
section
/-! DEFINITION. The frames of the serial link (chapter 9), at the fall of nSEL, at the beginning of the third byte and at the
rise of nSEL: addressing and length (R162, R165), the check byte (R166), acceptance and rejection (R167, R168), what the
part shifts out on SDO and when it forms it (R163, R164, R172), and the watchdog (R173). -/

namespace Sys2Proof.Machine

/-- The bits of a byte, most significant first. -/
def bitsOf (b : Byte) : List Bool :=
  [b.getLsbD 7, b.getLsbD 6, b.getLsbD 5, b.getLsbD 4, b.getLsbD 3, b.getLsbD 2, b.getLsbD 1, b.getLsbD 0]

/-- The whole bytes of a sequence of bits; the bits of a byte cut short are left out (R162). -/
def bytesOf : List Bool → List Byte
  | b7 :: b6 :: b5 :: b4 :: b3 :: b2 :: b1 :: b0 :: rest => bits8 b0 b1 b2 b3 b4 b5 b6 b7 :: bytesOf rest
  | _ => []

/-- One bit into the CRC-8 register, generator x^8 + x^2 + x + 1 (R166). -/
def crcBit (c : Byte) (b : Bool) : Byte := (c <<< 1) ^^^ (if c.getLsbD 7 != b then 0x07 else 0x00)

/-- The check byte of a sequence of bytes (R166). -/
def crc8 (bs : List Byte) : Byte := (bs.flatMap bitsOf).foldl crcBit 0

/-- The first four bits of a header: the chip address and the kind (R162). -/
def headerBits (addr : BitVec 2) (kind1 kind0 : Bool) : List Bool := [addr.getLsbD 1, addr.getLsbD 0, kind1, kind0]

/-- The bits shifted out after the header of a frame of `clocks` clocks: the bytes given, then 0x00 (R163). -/
def shiftOut (clocks : Nat) (bytes : List Byte) : List Bool :=
  let bits := (bytes.flatMap bitsOf).take (clocks - 8)
  bits ++ List.replicate (clocks - 8 - bits.length) false

/-- What SDO carries over an addressed frame: it is driven from the eighth falling edge of SCK on, so a frame that ends
inside the header leaves it high-impedance (R163). -/
def answered (tail bits : List Bool) : Option (List Bool) := if 4 ≤ tail.length then some bits else none

/-- What SDO carried during the frame is kept (log entry 17). -/
def State.setSdo (s : State) (x : Option (List Bool)) : State := s.setPins { s.pins with sdo := x }

/-- nSEL falls: a frame is in progress, the straps are read and the status byte is formed (R162, R164). -/
def openFrame (p : Straps) (s : State) : State :=
  s.setLink { s.link with frame := some { strap := p.strap, crcen := p.crcen, status := statusByte s, reply := none } }

/-- nSEL rises at the end of an ignored frame: SDO has stayed high-impedance, and nothing else has changed (R162). -/
def passFrame (s : State) : State := (s.setLink { s.link with frame := none }).setSdo none

/-- nSEL rises and the frame is accepted: LINKERR is cleared and the watchdog restarted (R168, R173). -/
def acceptFrame (s : State) : State := s.setLink (Link.feed { s.link with linkErr := false, frame := none })

/-- nSEL rises and the frame is rejected: LINKERR is set, and nothing else changes (R167, R168). -/
def rejectFrame (s : State) : State := s.setLink { s.link with linkErr := true, frame := none }

/-- The frame in progress, if it is addressed to the part (R162). -/
def State.addressed (s : State) (addr : BitVec 2) : Option Frame :=
  match s.link.frame with
  | some f => if addr = f.strap then some f else none
  | none => none

/-- nSEL rises: a frame that is addressed to the part is taken, and any other is ignored (R162). -/
def endFrame (addr : BitVec 2) (take : Frame → State → State) (s : State) : State :=
  match s.addressed addr with
  | some f => take f s
  | none => passFrame s

/-- What a frame does at one of its moments (log entry 3). -/
def atMoment (m : FrameMoment) (thirdByte rise : State → State) (s : State) : State :=
  match m with
  | .fall p => openFrame p s
  | .thirdByte => thirdByte s
  | .rise => rise s
  | .whole p => rise (openFrame p s)

/-- The second byte of a STATUS or FETCH frame matches: it is the check byte of the header when CRCEN is high, and ignored
when it is low (R163, R166). -/
def headerChecked (crcen : Bool) : List Byte → Bool
  | h :: b :: _ => !crcen || b == crc8 [h]
  | _ => false

/-- The reply as a FETCH returns it: L, the reply code and the data; L = 0 if none is stored; with CRCEN high the check
byte after it (R166, R172, R182). -/
def replyBytes (crcen : Bool) (b : ReplyBuffer) : List Byte :=
  let bytes := match b with
    | .stored r => byte1 (1 + r.data.length) ++ byte1 r.code.code ++ r.data
    | .empty | .pending _ => [0]
  if crcen then bytes ++ [crc8 bytes] else bytes

/-- The command of a COMMAND frame from its bytes after the header: the code names a command, the length is the one the
code and CRCEN require, and the check byte matches (R165, R166, R167). -/
def frameCommand (crcen : Bool) : List Byte → Option Instr
  | h :: code :: rest =>
    if crcen then
      if rest.getLast? = some (crc8 (h :: code :: rest.dropLast)) then decodeCommand code rest.dropLast else none
    else decodeCommand code rest
  | _ => none

/-- The rise of nSEL at the end of a STATUS frame (R164, R167). -/
def takeStatus (addr : BitVec 2) (tail : List Bool) (f : Frame) (s : State) : State :=
  let clocks := 4 + tail.length
  let ok := clocks == 16 && headerChecked f.crcen (bytesOf (headerBits addr false false ++ tail))
  (if ok then acceptFrame s else rejectFrame s).setSdo (answered tail (shiftOut clocks [f.status]))

/-- The rise of nSEL at the end of a COMMAND frame (R167, R169): accepted, it discards the reply and sets BUSY with its
command. -/
def takeCommand (addr : BitVec 2) (tail : List Bool) (f : Frame) (s : State) : State :=
  let clocks := 4 + tail.length
  let after :=
    if clocks % 8 = 0 ∧ s.link.buffer.isPending = false then
      match frameCommand f.crcen (bytesOf (headerBits addr false true ++ tail)) with
      | some i => (acceptFrame s).setLink { (acceptFrame s).link with buffer := .pending i }
      | none => rejectFrame s
    else rejectFrame s
  after.setSdo (answered tail (shiftOut clocks [f.status]))

/-- The check byte of a FETCH frame with these bits has been taken and matches, so a reply is due (R163). -/
def fetchMatched (crcen : Bool) (addr : BitVec 2) (tail : List Bool) : Bool :=
  headerChecked crcen (bytesOf (headerBits addr true false ++ tail))

/-- The third byte of an addressed FETCH frame begins: the reply to return is the buffer as it stands (R163, R172). -/
def formReply (addr : BitVec 2) (tail : List Bool) (s : State) : State :=
  match s.addressed addr with
  | some f =>
    if f.reply = none ∧ fetchMatched f.crcen addr tail = true then
      s.setLink { s.link with frame := some { f with reply := some (replyBytes f.crcen s.link.buffer) } }
    else s
  | none => s

/-- The rise of nSEL at the end of a FETCH frame (R167, R172). The reply returned is the one formed when its first byte
began, or the buffer as it stands where nothing has been taken since. A FETCH whose check byte does not match is returned
0x00 in place of the reply (R163). -/
def takeFetch (addr : BitVec 2) (tail : List Bool) (f : Frame) (s : State) : State :=
  let clocks := 4 + tail.length
  let matched := fetchMatched f.crcen addr tail
  let reply := if matched then f.reply.getD (replyBytes f.crcen s.link.buffer) else []
  let ok := clocks % 8 == 0 && decide (24 ≤ clocks) && matched
  (if ok then acceptFrame s else rejectFrame s).setSdo (answered tail (shiftOut clocks (f.status :: reply)))

/-- The rise of nSEL at the end of a frame of no kind: ignored if no address was taken, and otherwise rejected if it is
addressed (R162, R167). -/
def takeNoKind (bits : NoKind) (s : State) : State :=
  match bits with
  | .noClock | .oneClock _ => passFrame s
  | .twoClocks addr | .threeClocks addr _ => endFrame addr (fun _ s => (rejectFrame s).setSdo none) s
  | .kind11 addr tail =>
    endFrame addr (fun f s => (rejectFrame s).setSdo (answered tail (shiftOut (4 + tail.length) [f.status]))) s

def execStatusFrame (m : FrameMoment) (addr : BitVec 2) (tail : List Bool) (s : State) : Host.Outcome State Fault Refusal :=
  whenRunning s (atMoment m id (endFrame addr (takeStatus addr tail)))

def execCommandFrame (m : FrameMoment) (addr : BitVec 2) (tail : List Bool) (s : State) : Host.Outcome State Fault Refusal :=
  whenRunning s (atMoment m id (endFrame addr (takeCommand addr tail)))

def execFetchFrame (m : FrameMoment) (addr : BitVec 2) (tail : List Bool) (s : State) : Host.Outcome State Fault Refusal :=
  whenRunning s (atMoment m (formReply addr tail) (endFrame addr (takeFetch addr tail)))

def execFrameOfNoKind (m : FrameMoment) (bits : NoKind) (s : State) : Host.Outcome State Fault Refusal :=
  whenRunning s (atMoment m id (takeNoKind bits))

end Sys2Proof.Machine
end

