-- ==== Sys2Proof/Machine/Events.lean ====
section
/-! DEFINITION. The events of the station inputs and the ends of the timers (chapters 4, 7, 8, 9). An edge event acts as a
taken edge and takes the mark that a tick left for it (log entry 4); the end of a timer acts when its count has run out
and changes nothing otherwise (log entry 5). -/

namespace Sys2Proof.Machine

/-- The mark of an edge of a CUT input, if the line holds this one, has been acted on. -/
def takeCutMark (s : State) (w : WheelNo) (e : Edge) : State :=
  if s.cutLines[w].edge = some e then { s with cutLines := s.cutLines.set w { s.cutLines[w] with edge := none } } else s

/-- The mark of a rising edge of PEND, if the line holds one, has been acted on. -/
def takePendMark (s : State) (st : StationNo) : State :=
  { s with pendLines := s.pendLines.set st { s.pendLines[st] with edge := none } }

/-- The engage delay of the seat's group in milliseconds (R84). -/
def State.engageTime (s : State) (w : WheelNo) : Nat :=
  match s.wheelParams w with
  | some p => 10 * p.engageDelay
  | none => 0

/-- The blanking time of the seat's group in milliseconds, as it stands. -/
def State.blankingTime (s : State) (w : WheelNo) : Nat :=
  match s.wheelParams w with
  | some p => 10 * p.blankingTime
  | none => 0

/-- The blanking time in milliseconds that a falling edge starts the phase timer with. Where DEFINE has changed the group's
blanking time since the cut began, the rules differ: it is read as it stands at the edge (R87, R88), and the new time is used
from the next cut (R58, R80) or from the release of a HALTED seat (R141). A free value decides between the two (log entry
23). -/
def State.settleTime (s : State) (w : WheelNo) : Nat :=
  if s.wheels[w].cutBlanking = s.blankingTime w then s.blankingTime w
  else if Config.newBlanking s.freeCount then s.blankingTime w
  else s.wheels[w].cutBlanking

/-- A cut begins (R84): ENGAGE, or CUT at once with an engage delay of 0; part-open and cut-seen are set, the cut timer
starts, the contact timer stops (R136), and a probe check ends ABORTED. -/
def beginCut (s : State) (w : WheelNo) : State :=
  let time := s.engageTime w
  let st := stationOfWheel w
  let s := s.setWheel w { s.wheels[w] with
    phase := if time = 0 then .cut else .engage
    phaseTimer := if time = 0 then none else some { count := 0, time := time }
    cutBlanking := s.blankingTime w
    cutSeen := true
    cutTimer := some { count := 0, fires := false }
    contact := none }
  abortCheck (s.setStation st { s.stations[st] with partOpen := true }) w

/-- A rising edge of a CUT input is taken at its wheel seat (R84, R85). A rising edge finds no cut open at a RUNNING or
DUE seat (R84); where one is open the event changes nothing (log entry 14). -/
def takeCutRise (w : WheelNo) (s : State) : State :=
  let s := takeCutMark s w .rising
  match s.seats[seatOfWheel w].service with
  | .running | .due => if s.wheels[w].phase.cutOpen then s else beginCut s w
  | .unbound | .waiting | .changing | .halted => s.raise (seatOfWheel w) .foreign

/-- A falling edge of a CUT input closes an open cut (R87): SETTLE with the blanking time, or IDLE with none; the loss and
overload timers stop (R136), and the cut is charged. Each close here draws on the free values once (log entry 23). -/
def takeCutFall (w : WheelNo) (s : State) : State :=
  let s := takeCutMark s w .falling
  if s.wheels[w].phase.cutOpen then
    let time := s.settleTime w
    let s := { s with freeCount := s.freeCount + 1 }.setWheel w { s.wheels[w] with
      phase := if time = 0 then .idle else .settle
      phaseTimer := if time = 0 then none else some { count := 0, time := time }
      loss := none
      overload := none }
    tell (closeCut s w) (seatOfWheel w)
  else s

/-- A seat counts at the part end: it holds a tool and the cut-seen flag of its wheel seat is set (R46). -/
def State.counts (s : State) (q : SeatNo) : Bool :=
  s.seats[q].service.holdsTool && s.wheels[pairedWheel q].cutSeen

/-- The part charge at one seat (R46). Answers whether the seat controller is told of a new end. -/
def partCharge (s : State) (q : SeatNo) : State × Bool :=
  match s.mountedAt q with
  | some r => if s.counts q then measureWrite s .charge r (chargePart r) else (s, false)
  | none => (s, false)

/-- The part charges of a station, and the seats whose ACTIVE tool gained an ended measure by them (R46, R94 step 1). -/
def partCharges (s : State) : List SeatNo → State × List SeatNo
  | [] => (s, [])
  | q :: qs =>
    let p := partCharge s q
    let rest := partCharges p.1 qs
    (rest.1, if p.2 then q :: rest.2 else rest.2)

/-- Part-open and the cut-seen flags of the station are cleared (R94 step 2). -/
def clearPart (s : State) (st : StationNo) : State :=
  let s := s.setStation st { s.stations[st] with partOpen := false }
  (wheelsOf st).foldl (fun s w => s.setWheel w { s.wheels[w] with cutSeen := false }) s

/-- The seats of a station that begin a change at the part end: the DUE seats, and the RUNNING seats whose tool ended by
the count (R94 step 3, R100). -/
def changesAtPartEnd (s : State) (st : StationNo) (ended : List SeatNo) : List SeatNo :=
  (seatsOf st).filter fun q =>
    s.seats[q].service == .due || (s.seats[q].service == .running && ended.contains q)

/-- Two seats of one kind that begin their changes begin in either order; it bears on the outcome where both are bound to
one group, and a free value decides (R94, R100; log entry 8). -/
def eitherOrder (s : State) (later : Bool) : List SeatNo → List SeatNo
  | [x, y] => if s.seats[x].group == s.seats[y].group && later then [y, x] else [x, y]
  | qs => qs

/-- The seats that change, wheel seats and dresser seats each in an order left open. Seats of different kinds are bound to
different groups, so their order does not bear on the outcome. -/
def changeOrder (s : State) (qs : List SeatNo) : List SeatNo :=
  eitherOrder s (Config.laterSeatFirst s.freeCount) (qs.filter fun q => seatKind q == .wheel)
    ++ eitherOrder s (Config.laterSeatFirst (s.freeCount + 1)) (qs.filter fun q => seatKind q == .dresser)

/-- A part end with part-open set (R94). -/
def endPart (s : State) (st : StationNo) : State :=
  let p := partCharges s (seatsOf st)
  let s := clearPart p.1 st
  let s' := { s with freeCount := s.freeCount + 2 }
  (changeOrder s (changesAtPartEnd s st p.2)).foldl beginChange s'

/-- A rising edge of PENDs is taken; while part-open is clear it has no effect (R94). -/
def takePartEnd (st : StationNo) (s : State) : State :=
  let s := takePendMark s st
  if s.stations[st].partOpen then endPart s st else s

/-- The phase timer has run its time. -/
def Wheel.phaseRun (x : Wheel) : Bool :=
  match x.phaseTimer with
  | some t => decide (t.time ≤ t.count)
  | none => false

/-- The engage delay has run: ENGAGE goes to CUT (R86). -/
def takeEngageEnd (w : WheelNo) (s : State) : State :=
  if s.wheels[w].phase = .engage ∧ s.wheels[w].phaseRun = true then
    s.setWheel w { s.wheels[w] with phase := .cut, phaseTimer := none }
  else s

/-- The blanking time has run: SETTLE goes to IDLE (R88). -/
def takeBlankingEnd (w : WheelNo) (s : State) : State :=
  if s.wheels[w].phase = .settle ∧ s.wheels[w].phaseRun = true then
    s.setWheel w { s.wheels[w] with phase := .idle, phaseTimer := none }
  else s

/-- A filter timer of a wheel seat. -/
def Wheel.filter (x : Wheel) : FilterKind → Option WatchTimer
  | .loss => x.loss
  | .overload => x.overload
  | .contact => x.contact

/-- A filter timer of a wheel seat is stopped. -/
def Wheel.stopFilter (x : Wheel) : FilterKind → Wheel
  | .loss => { x with loss := none }
  | .overload => { x with overload := none }
  | .contact => { x with contact := none }

/-- The cause a filter timer gives (R132). -/
def FilterKind.cause : FilterKind → BreakCause
  | .loss => .loss
  | .overload => .overload
  | .contact => .contact

/-- A timer fired at the last tick and its firing has not been taken. -/
def fired : Option WatchTimer → Bool
  | some t => t.fires
  | none => false

/-- A filter timer that has reached the effective filter time fires: it is stopped, and a suspicion is raised (R135). -/
def takeFilter (w : WheelNo) (k : FilterKind) (s : State) : State :=
  if fired (s.wheels[w].filter k) then suspicion (s.setWheel w (s.wheels[w].stopFilter k)) w (FilterKind.cause k) else s

/-- The OVERTIME condition found at the last tick raises a suspicion; the cut timer counts on (R137). -/
def takeOvertime (w : WheelNo) (s : State) : State :=
  match s.wheels[w].cutTimer with
  | some t =>
    if t.fires then
      suspicion (s.setWheel w { s.wheels[w] with cutTimer := some { t with fires := false } }) w .overtime
    else s
  | none => s

/-- A probe check's duration count has reached 10 × d (R148). -/
def ProbeCheck.run (c : ProbeCheck) : Bool := decide (10 * c.steps ≤ c.count)

/-- The duration of a probe check has run out: PASS if an average has been tested, NO_DATA if none has (R148). -/
def takeCheckEnd (w : WheelNo) (s : State) : State :=
  match s.wheels[w].check with
  | some c => if c.run then endCheck s w (if c.tested then .pass else .noData) else s
  | none => s

/-- A stretch timer's count has reached its stretch time (R159). -/
def Station.stretchRun (x : Station) : Bool :=
  match x.stretch with
  | some t => decide (t.time ≤ t.count)
  | none => false

/-- The stretch timer stops; the lamp follows at the end of the step (R159). -/
def takeStretchEnd (st : StationNo) (s : State) : State :=
  if s.stations[st].stretchRun then s.setStation st { s.stations[st] with stretch := none } else s

/-- The watchdog count has reached the period (R173). -/
def Link.expired (l : Link) : Bool :=
  match l.watchdog, l.period.ticks with
  | some c, some p => decide (p ≤ c)
  | _, _ => false

/-- The watchdog expires and the link enters HOLD (R174). The permits and lamps follow at the end of the step. -/
def takeExpiry (s : State) : State :=
  if s.link.expired then (s.setLink { s.link with hold := true, watchdog := none }).raiseHold else s

def execCutRisingEdge (w : WheelNo) (s : State) : Host.Outcome State Fault Refusal := whenRunning s (takeCutRise w)

def execCutFallingEdge (w : WheelNo) (s : State) : Host.Outcome State Fault Refusal := whenRunning s (takeCutFall w)

def execPartEnd (st : StationNo) (s : State) : Host.Outcome State Fault Refusal := whenRunning s (takePartEnd st)

def execEngageDelayEnd (w : WheelNo) (s : State) : Host.Outcome State Fault Refusal := whenRunning s (takeEngageEnd w)

def execBlankingTimeEnd (w : WheelNo) (s : State) : Host.Outcome State Fault Refusal := whenRunning s (takeBlankingEnd w)

def execFilterTimerFires (w : WheelNo) (k : FilterKind) (s : State) : Host.Outcome State Fault Refusal :=
  whenRunning s (takeFilter w k)

def execOvertime (w : WheelNo) (s : State) : Host.Outcome State Fault Refusal := whenRunning s (takeOvertime w)

def execCheckDurationEnd (w : WheelNo) (s : State) : Host.Outcome State Fault Refusal := whenRunning s (takeCheckEnd w)

def execStretchTimerEnd (st : StationNo) (s : State) : Host.Outcome State Fault Refusal := whenRunning s (takeStretchEnd st)

def execWatchdogExpiry (s : State) : Host.Outcome State Fault Refusal := whenRunning s takeExpiry

end Sys2Proof.Machine
end

