-- ==== Sys2Proof/Machine/Tick.lean ====
section
/-! DEFINITION. The 1 ms tick (R33): the events of the tick before that nobody has taken yet, the sampling of the twelve
inputs (R82), the additions to the accumulators (R33 to R36) and the advance of every running count. -/

namespace Sys2Proof.Machine

/-! ### Events that a tick has made due -/

/-- An event of the last tick that stands to be taken. -/
inductive Due where
  | cutRise (w : WheelNo)
  | cutFall (w : WheelNo)
  | partEnd (st : StationNo)
  | engageEnd (w : WheelNo)
  | blankingEnd (w : WheelNo)
  | filter (w : WheelNo) (k : FilterKind)
  | overtime (w : WheelNo)
  | checkEnd (w : WheelNo)
  | stretchEnd (st : StationNo)
  | expiry
deriving DecidableEq, Repr

/-- An event, if its condition holds. -/
def dueIf (b : Bool) (e : Due) : List Due := if b then [e] else []

/-- The duration of the probe check in flight, if there is one, has run out. -/
def Wheel.checkRun (x : Wheel) : Bool :=
  match x.check with
  | some c => c.run
  | none => false

/-- The events due at a wheel seat. -/
def dueAtWheel (s : State) (w : WheelNo) : List Due :=
  List.flatten
    [dueIf (s.cutLines[w].edge == some .rising) (.cutRise w),
     dueIf (s.cutLines[w].edge == some .falling) (.cutFall w),
     dueIf (s.wheels[w].phase == .engage && s.wheels[w].phaseRun) (.engageEnd w),
     dueIf (s.wheels[w].phase == .settle && s.wheels[w].phaseRun) (.blankingEnd w),
     dueIf (fired s.wheels[w].loss) (.filter w .loss),
     dueIf (fired s.wheels[w].overload) (.filter w .overload),
     dueIf (fired s.wheels[w].contact) (.filter w .contact),
     dueIf (fired s.wheels[w].cutTimer) (.overtime w),
     dueIf s.wheels[w].checkRun (.checkEnd w)]

/-- The events due at a station. -/
def dueAtStation (s : State) (st : StationNo) : List Due :=
  dueIf (s.pendLines[st].edge == some .rising) (.partEnd st) ++ dueIf s.stations[st].stretchRun (.stretchEnd st)

/-- Every event of the last tick that stands to be taken. -/
def dueEvents (s : State) : List Due :=
  (List.finRange 8).flatMap (dueAtWheel s) ++ (List.finRange 4).flatMap (dueAtStation s)
    ++ dueIf s.link.expired .expiry

/-- The event is taken, as the row of the opcode table that names it. -/
def takeDue (s : State) : Due → State
  | .cutRise w => commit s (takeCutRise w s)
  | .cutFall w => commit s (takeCutFall w s)
  | .partEnd st => commit s (takePartEnd st s)
  | .engageEnd w => commit s (takeEngageEnd w s)
  | .blankingEnd w => commit s (takeBlankingEnd w s)
  | .filter w k => commit s (takeFilter w k s)
  | .overtime w => commit s (takeOvertime w s)
  | .checkEnd w => commit s (takeCheckEnd w s)
  | .stretchEnd st => commit s (takeStretchEnd st s)
  | .expiry => commit s (takeExpiry s)

/-- The events of one tick are all taken before the next tick. Those the world has not placed are taken here, in an order
that a free value decides where more than one stands (log entry 6). -/
def settleLoop : Nat → State → State
  | 0, s => s
  | fuel + 1, s =>
    match dueEvents s with
    | [] => s
    | [e] => settleLoop fuel (takeDue s e)
    | e :: es =>
      let k := Config.eventChoice s.freeCount % (es.length + 1)
      settleLoop fuel (takeDue { s with freeCount := s.freeCount + 1 } ((e :: es).getD k e))

/-- Every event of the last tick is taken: each event taken leaves fewer. -/
def settle (s : State) : State := settleLoop (dueEvents s).length s

/-! ### Sampling (R82) -/

/-- One sample of a line. A level that differs from the taken level and was seen at the previous tick too is taken, with
an edge; the first level two samples agree on after a reset is taken without one. -/
def Line.sample (l : Line) (level : Bool) : Line :=
  if l.last = some level ∧ l.taken ≠ some level then
    { taken := some level, last := some level
      edge := match l.taken with
        | some _ => some (if level then .rising else .falling)
        | none => none }
  else { taken := l.taken, last := some level, edge := none }

/-- A falling edge of PEND has no effect (R83), so a PEND line keeps no mark of it. -/
def Line.samplePend (l : Line) (level : Bool) : Line :=
  let l := l.sample level
  if l.edge = some .falling then { l with edge := none } else l

/-! ### Counts -/

/-- The addition of one tick in CUT: the published average of the seat's channel, or under a sense fault the nominal load
of the seat's group as it stands at the tick; the accumulator saturates (R33 to R36). That a redefined nominal load counts at
a HALTED seat from the next tick, where R141 gives it from the seat's release, is the model's choice (log entry 25). -/
def addLoad (s : State) (w : WheelNo) : Nat :=
  let x := s.wheels[w]
  let average := s.scan.channels[channelOf w].average
  let load := match s.wheelParams w with
    | some p => if s.scan.fault then p.nominalLoad else average
    | none => average
  if x.phase = .cut then min 4294967295 (x.accumulator + load) else x.accumulator

/-- A running filter timer at a tick: it fires when its count reaches the effective filter time (R135). -/
def advanceFilter (limit : Option Nat) (t : WatchTimer) : WatchTimer :=
  { count := t.count + 1
    fires := match limit with
      | some f => decide (f ≤ t.count + 1)
      | none => false }

/-- The overtime condition is armed and met at a count of the cut timer (R132, R137). -/
def overtimeMet (s : State) (w : WheelNo) (count : Nat) : Bool :=
  match s.wheelParams w with
  | some p =>
    s.seats[seatOfWheel w].service.inService && s.wheels[w].phase.cutOpen && decide (0 < p.maxCutTime)
      && decide (100 * p.maxCutTime ≤ count)
  | none => false

/-- The running cut timer at a tick: it stops rising at 6,553,500 (R132, R137). -/
def advanceCutTimer (s : State) (w : WheelNo) (t : WatchTimer) : WatchTimer :=
  let count := min 6553500 (t.count + 1)
  { count := count, fires := overtimeMet s w count }

/-- A wheel seat after a tick. -/
def tickWheel (s : State) (w : WheelNo) : Wheel :=
  let x := s.wheels[w]
  let limit := (s.wheelParams w).map Params.effectiveFilter
  { x with
    accumulator := addLoad s w
    phaseTimer := x.phaseTimer.map fun t => { t with count := t.count + 1 }
    loss := x.loss.map (advanceFilter limit)
    overload := x.overload.map (advanceFilter limit)
    contact := x.contact.map (advanceFilter limit)
    cutTimer := x.cutTimer.map (advanceCutTimer s w)
    check := x.check.map fun c => { c with count := c.count + 1 } }

/-- A station after a tick (R159). -/
def tickStation (x : Station) : Station := { x with stretch := x.stretch.map fun t => { t with count := t.count + 1 } }

/-- The link after a tick: the millisecond count wraps at 32 bits (R177), and the watchdog count rises (R173). -/
def tickLink (l : Link) : Link := { l with millis := l.millis + 1, watchdog := l.watchdog.map (· + 1) }

/-- The tick itself, with every event of the tick before taken. -/
def tickBody (x : Samples) (s : State) : State :=
  { s with
    cutLines := Vector.ofFn fun w => s.cutLines[w].sample x.cut[w]
    pendLines := Vector.ofFn fun st => s.pendLines[st].samplePend x.pend[st]
    wheels := Vector.ofFn (tickWheel s)
    stations := Vector.ofFn fun st => tickStation s.stations[st]
    link := tickLink s.link }

def execTick (x : Samples) (s : State) : Host.Outcome State Fault Refusal :=
  .next (if s.nRST then commit (settle s) (tickBody x (settle s)) else s)

end Sys2Proof.Machine
end

