-- ==== Sys2Proof/Machine/Dispatch.lean ====
section
/-! DEFINITION. One arm per command: its row of spec/opcode_table.json to its meaning. -/

namespace Sys2Proof.Machine

def exec (i : Instr) (s : State) : Host.Outcome State Fault Refusal :=
  match i with
  | .enrol t k p m => Sys2Proof.Machine.execEnrol t k p m s
  | .edit t a p m => Sys2Proof.Machine.execEdit t a p m s
  | .retire t => Sys2Proof.Machine.execRetire t s
  | .query t => Sys2Proof.Machine.execQuery t s
  | .next t => Sys2Proof.Machine.execNext t s
  | .lock t => Sys2Proof.Machine.execLock t s
  | .unlock t => Sys2Proof.Machine.execUnlock t s
  | .define a => Sys2Proof.Machine.execDefine a s
  | .link g t x => Sys2Proof.Machine.execLink g t x s
  | .unlink t => Sys2Proof.Machine.execUnlink t s
  | .group g => Sys2Proof.Machine.execGroup g s
  | .bind q g => Sys2Proof.Machine.execBind q g s
  | .unbind q => Sys2Proof.Machine.execUnbind q s
  | .mount q t => Sys2Proof.Machine.execMount q t s
  | .swap q => Sys2Proof.Machine.execSwap q s
  | .whereSeat q => Sys2Proof.Machine.execWhereSeat q s
  | .release q => Sys2Proof.Machine.execRelease q s
  | .condemn q => Sys2Proof.Machine.execCondemn q s
  | .check q lo hi d => Sys2Proof.Machine.execCheck q lo hi d s
  | .dress q x => Sys2Proof.Machine.execDress q x s
  | .readLoad c => Sys2Proof.Machine.execReadLoad c s
  | .setSense c n => Sys2Proof.Machine.execSetSense c n s
  | .takeNotices => Sys2Proof.Machine.execTakeNotices s
  | .setLink w x => Sys2Proof.Machine.execSetLink w x s
  | .resume => Sys2Proof.Machine.execResume s
  | .restart => Sys2Proof.Machine.execRestart s
  | .ident => Sys2Proof.Machine.execIdent s
  | .statusFrame m a tail => Sys2Proof.Machine.execStatusFrame m a tail s
  | .commandFrame m a tail => Sys2Proof.Machine.execCommandFrame m a tail s
  | .fetchFrame m a tail => Sys2Proof.Machine.execFetchFrame m a tail s
  | .powerOn n => Sys2Proof.Machine.execPowerOn n s
  | .nrstLow => Sys2Proof.Machine.execNrstLow s
  | .tick x => Sys2Proof.Machine.execTick x s
  | .cutRisingEdge w => Sys2Proof.Machine.execCutRisingEdge w s
  | .cutFallingEdge w => Sys2Proof.Machine.execCutFallingEdge w s
  | .partEnd st => Sys2Proof.Machine.execPartEnd st s
  | .engageDelayEnd w => Sys2Proof.Machine.execEngageDelayEnd w s
  | .blankingTimeEnd w => Sys2Proof.Machine.execBlankingTimeEnd w s
  | .filterTimerFires w k => Sys2Proof.Machine.execFilterTimerFires w k s
  | .overtime w => Sys2Proof.Machine.execOvertime w s
  | .checkDurationEnd w => Sys2Proof.Machine.execCheckDurationEnd w s
  | .stretchTimerEnd st => Sys2Proof.Machine.execStretchTimerEnd st s
  | .watchdogExpiry => Sys2Proof.Machine.execWatchdogExpiry s
  | .conversionEnd c => Sys2Proof.Machine.execConversionEnd c s
  | .nrstHigh => Sys2Proof.Machine.execNrstHigh s
  | .frameOfNoKind m b => Sys2Proof.Machine.execFrameOfNoKind m b s

end Sys2Proof.Machine
end

