-- ==== Sys2Proof/Safety.lean ====
section
/-! DEFINITION. The terms in which claims about the LV6120 are made: when a command completes, what a step keeps, the
values after a reset, and the conditions that hold of every state the part reaches. -/

namespace Sys2Proof.Safety

open Sys2Proof.Machine

/-! ### The outputs -/

/-- A seat of the station. -/
abbrev AtStation (q : SeatNo) (st : StationNo) : Prop := q.val / 4 = st.val

/-- A seat is bound: in any service state other than UNBOUND (R75). -/
abbrev Bound (s : State) (q : SeatNo) : Prop := s.seats[q].service ≠ .unbound

/-- The outputs are as R96, R154 and R159 give them: PERMITs is high exactly when the link is not in HOLD, the station has
a bound seat, and every bound seat of it is RUNNING or DUE; LAMPs is lit exactly while a seat of the station is HALTED or
WAITING, the link is in HOLD, or the stretch timer runs; nATTN is low exactly when a notice flag is set. -/
structure PinsDriven (s : State) : Prop where
  permit : ∀ st : StationNo, s.pins.permit[st] = true ↔
    s.link.hold = false ∧ (∃ q, AtStation q st ∧ Bound s q)
      ∧ ∀ q : SeatNo, AtStation q st → Bound s q → s.seats[q].service = .running ∨ s.seats[q].service = .due
  lamp : ∀ st : StationNo, s.pins.lamp[st] = true ↔
    s.link.hold = true ∨ (∃ q : SeatNo, AtStation q st ∧ (s.seats[q].service = .halted ∨ s.seats[q].service = .waiting))
      ∨ s.stations[st].stretch ≠ none
  nATTN : s.pins.nATTN = false ↔
    (∃ q : SeatNo, s.notices.seats[q].any = true) ∨ s.notices.device.reset = true ∨ s.notices.device.hold = true
      ∨ s.notices.device.sense = true

/-! ### Completing a command -/

/-- The part is not held in reset, and no other command is in execution (R169, R178): the command is the one that is BUSY,
or none is BUSY (log entry 7). -/
abbrev Ready (s : State) (i : Instr) : Prop := s.nRST = true ∧ s.link.mayComplete i = true

/-- The reply stored in the buffer (R171). -/
abbrev Stored (t : State) (r : Reply) : Prop := t.link.buffer = .stored r

/-- A success reply without data. -/
def done : Reply := { code := .done, data := [] }

/-- The link with a reply stored. -/
def withReply (l : Link) (r : Reply) : Link := { l with buffer := .stored r }

/-- Nothing of the state has changed but the reply buffer. -/
def OnlyReply (s t : State) : Prop := t = { s with link := { s.link with buffer := t.link.buffer } }

/-- The command completes, its reply is the code given, without data, and nothing else has changed in a part whose outputs
follow their conditions: a refusal (R179). -/
def Answers (i : Instr) (s : State) (c : ReplyCode) : Prop :=
  ∃ t, exec i s = .next t ∧ Stored t { code := c, data := [] } ∧ (PinsDriven s → OnlyReply s t)

/-- `c` is the code of the first check of a list that fails; each check is given by when it fails. -/
def FirstFailing : List (Prop × ReplyCode) → ReplyCode → Prop
  | [], _ => False
  | (fails, d) :: rest, c => (fails ∧ c = d) ∨ (¬ fails ∧ FirstFailing rest c)

/-- The end of a step that began in `s` and completes a command: the reply is stored and the outputs follow. -/
def answer (s t : State) (r : Reply) : State := commit s (t.setLink (withReply t.link r))

/-- The step in which command `i` completes at `s` leaves `t`, with the reply `r` stored and the outputs driven. -/
def CompletesAs (i : Instr) (s t : State) (r : Reply) : Prop := exec i s = .next (answer s t r)

/-! ### Records -/

/-- The record as EDIT writes it (R22): each field whose apply bit is set takes the value carried, a limit only if its
presence bit is set; stock start follows stock now. -/
def edited (apply presence : Byte) (m : Measures) (r : ToolRecord) : ToolRecord :=
  let limit := fun (bit : Nat) (value : Nat) => if presence.getLsbD bit then some value else none
  { r with
    partsUsed := if apply.getLsbD 0 then m.partsUsed.toNat else r.partsUsed
    partsLimit := if apply.getLsbD 1 then limit 0 m.partsLimit.toNat else r.partsLimit
    wearUsed := if apply.getLsbD 2 then m.wearUsed.toNat else r.wearUsed
    wearLimit := if apply.getLsbD 3 then limit 1 m.wearLimit.toNat else r.wearLimit
    dressUsed := if apply.getLsbD 4 then m.dressUsed.toNat else r.dressUsed
    dressLimit := if apply.getLsbD 5 then limit 2 m.dressLimit.toNat else r.dressLimit
    stockNow := if apply.getLsbD 6 then m.stockNow.toNat else r.stockNow
    stockStart := if apply.getLsbD 6 then m.stockNow.toNat else r.stockStart
    stockFloor := if apply.getLsbD 7 then limit 3 m.stockFloor.toNat else r.stockFloor }

/-- The record with its ended set and its warned flag as a command recomputes them (R10, R50). -/
def judged (margin : Option Nat) (r : ToolRecord) : ToolRecord :=
  { r with ended := endedOf r, warned := computedWarning r margin }

/-- The record as a charge leaves it (R10, R50): the ended set recomputed, and the warned flag raised but never lowered. -/
def chargedTo (margin : Option Nat) (r : ToolRecord) : ToolRecord :=
  { r with ended := endedOf r, warned := r.warned || computedWarning r margin }

/-- The record after the wear charge of a cut of the load given at the nominal load given (R38). -/
def worn (load nominal : Nat) (r : ToolRecord) : ToolRecord :=
  let total := load + r.wearCarry
  { r with wearUsed := min 16777215 (r.wearUsed + total / nominal), wearCarry := total % nominal }

/-- The record after a dress charge (R43, R44). -/
def dressed (stock : Nat) (r : ToolRecord) : ToolRecord :=
  { r with dressUsed := min 65535 (r.dressUsed + 1), stockNow := r.stockNow - stock }

/-- The record after a part charge (R46). -/
def counted (r : ToolRecord) : ToolRecord := { r with partsUsed := min 16777215 (r.partsUsed + 1) }

/-- A write of measures has made a new end: the ended set has gained a member (R10). -/
abbrev NewEnd (old new : ToolRecord) : Prop :=
  (new.ended.parts = true ∧ old.ended.parts = false) ∨ (new.ended.wear = true ∧ old.ended.wear = false)
    ∨ (new.ended.dress = true ∧ old.ended.dress = false) ∨ (new.ended.stock = true ∧ old.ended.stock = false)

/-- A measure is ended. -/
abbrev HasEnd (r : ToolRecord) : Prop :=
  r.ended.parts = true ∨ r.ended.wear = true ∨ r.ended.dress = true ∨ r.ended.stock = true

/-- Raise a notice at a seat if a condition holds. -/
def raiseIf (s : State) (p : Prop) [Decidable p] (q : SeatNo) (n : SeatNotice) : State := if p then s.raise q n else s

/-! ### Seats and groups -/

/-- RUNNING or DUE: the seat is in service (R75, R96). -/
abbrev InService (s : State) (q : SeatNo) : Prop := s.seats[q].service = .running ∨ s.seats[q].service = .due

/-- RUNNING, DUE or HALTED: the seat holds a mounted tool (R42, R46). -/
abbrev HoldsTool (s : State) (q : SeatNo) : Prop := InService s q ∨ s.seats[q].service = .halted

/-- A cut is open at a wheel seat: its phase is ENGAGE or CUT (R37). -/
abbrev CutOpen (s : State) (w : WheelNo) : Prop := s.wheels[w].phase = .engage ∨ s.wheels[w].phase = .cut

/-- A wheel seat out of service (R89): phase IDLE, cut-seen clear, the filter timers stopped, a probe check ABORTED. -/
def rested (x : Wheel) : Wheel :=
  { x with
    phase := .idle, phaseTimer := none, cutSeen := false, loss := none, overload := none, contact := none, check := none
    lastResult := if x.check = none then x.lastResult else .aborted }

/-- A wheel seat as MOUNT puts it in service (R110): from rest, the last probe result kept. -/
def fresh (x : Wheel) : Wheel :=
  { x with
    phase := .idle, phaseTimer := none, cutSeen := false, accumulator := 0, cutTimer := none
    loss := none, overload := none, contact := none }

/-- The lit condition of a station (R158): a seat of it is HALTED or WAITING, or the link is in HOLD. -/
abbrev Lit (s : State) (st : StationNo) : Prop :=
  s.link.hold = true
    ∨ ∃ q : SeatNo, q.val / 4 = st.val ∧ (s.seats[q].service = .halted ∨ s.seats[q].service = .waiting)

/-- The group has a member or a bound seat (R55). -/
def InUse (s : State) (g : GroupNo) : Prop :=
  (∃ grp, s.groups[g] = some grp ∧ grp.members ≠ []) ∨ ∃ q : SeatNo, s.seats[q].group = some g

/-- The number of a kind in a DEFINE (R181): 0 NONE, 1 WHEEL, 2 DRESSER. -/
def kindCode : Option Kind → Nat
  | none => 0
  | some .wheel => 1
  | some .dresser => 2

/-- A number within a range: below it the least, above it the greatest. -/
def within (lo hi x : Nat) : Nat := if x < lo then lo else if x > hi then hi else x

/-- The parameters that a DEFINE writes (R57). -/
def clamped (a : DefineArgs) (policy : Policy) : Params where
  policy          := policy
  nominalLoad     := within 1 1023 a.nominalLoad.toNat
  warnMargin      := within 1 50 a.warnMargin.toNat
  rollWear        := a.rollWear.toNat
  lossFloor       := within 0 1023 a.lossFloor.toNat
  overloadCeiling := within 0 1023 a.overloadCeiling.toNat
  contactLevel    := within 0 1023 a.contactLevel.toNat
  engageDelay     := a.engageDelay.toNat
  blankingTime    := a.blankingTime.toNat
  filterTime      := within 1 1000 a.filterTime.toNat
  fast            := decide (a.fast ≠ 0)
  maxCutTime      := a.maxCutTime.toNat

/-- The group without a member, its cursor adjusted for the removal (R62, R63). -/
def without (grp : Group) (n : Nat) : Group :=
  { grp with
    members := grp.members.erase n
    cursor := match grp.cursor with
      | some c =>
        if grp.members.idxOf n > c then some c else if c > 0 then some (c - 1) else none
      | none => none }

/-- A member that a selection may take (R11, R66): an eligible one that is not the excluded tool. -/
abbrev Fits (s : State) (g : GroupNo) (excluded : Option Nat) (n : Nat) : Prop :=
  (∃ r, s.find n = some r ∧ r.state = .available ∧ r.group = some g ∧ ¬ HasEnd r) ∧ excluded ≠ some n

/-- A record of the table is counted at a part end of the station (R46): it is the mounted record of a seat of the station
that is RUNNING, DUE or HALTED and whose cut-seen flag, or whose paired wheel seat's, is set. -/
abbrev CountsAt (s : State) (st : StationNo) (q : SeatNo) (r : ToolRecord) : Prop :=
  q.val / 4 = st.val ∧ HoldsTool s q ∧ s.wheels[pairedWheel q].cutSeen = true ∧ s.holder q = some r
    ∧ (r.state = .active ∨ r.state = .suspect)

/-- The seat begins a change at a part end of the station (R94, R100): it is DUE, or RUNNING and the count ends its tool. -/
abbrev EndsAt (s : State) (st : StationNo) (q : SeatNo) (r : ToolRecord) : Prop :=
  AtStation q st ∧ (s.seats[q].service = .due
    ∨ s.seats[q].service = .running ∧ CountsAt s st q r ∧ NewEnd r (chargedTo (s.marginOf r) (counted r)))

/-- The record at a seat after the part charge of a part end of the station (R46, R47). -/
def countedAt (s : State) (st : StationNo) (q : SeatNo) (r : ToolRecord) : ToolRecord :=
  if CountsAt s st q r then chargedTo (s.marginOf r) (counted r) else r

/-- The record at a seat of the group after the seat has left service, an open cut charged to it (R38, R89). -/
def closedAt (s : State) (q : SeatNo) (grp : Group) (r : ToolRecord) : ToolRecord :=
  if q.val % 4 < 2 ∧ CutOpen s (pairedWheel q) then
    chargedTo (s.marginOf r) (worn s.wheels[pairedWheel q].accumulator grp.params.nominalLoad r)
  else r

/-- The notices of seat `q` raised where its record goes from `r` to `r'`: SPENT at a new end of an ACTIVE record, WARN
where the warned flag goes from no to yes (R10, R52). -/
def told (s : State) (q : SeatNo) (r r' : ToolRecord) : State :=
  raiseIf (raiseIf s (NewEnd r r' ∧ r.state = .active) q .spent) (r.warned = false ∧ r'.warned = true) q .warn

/-- The state after a dress charge (R43, R98): the record written, SPENT and WARN as they follow, and a RUNNING seat whose
tool has ended DUE while a part is open, and in a change at once while none is. -/
def afterDress (s : State) (q : SeatNo) (r r' : ToolRecord) : State :=
  let u := raiseIf (raiseIf (s.putRecord r') (NewEnd r r' ∧ r.state = .active) q .spent)
    (r.warned = false ∧ r'.warned = true) q .warn
  if NewEnd r r' ∧ r.state = .active ∧ s.seats[q].service = .running then
    if s.stations[stationOf q].partOpen then u.setService q .due else beginChange u q
  else u

/-- The state after a suspicion (R139), the cut timer as given. -/
def suspected (s : State) (w : WheelNo) (r : ToolRecord) (cause : BreakCause) (cutTimer : Option WatchTimer) : State :=
  (raiseIf ((((s.putRecord { r with state := .suspect, cause := some cause }).setService (seatOfWheel w) .halted).raise
      (seatOfWheel w) .breakage)) (s.wheels[w].check ≠ none) (seatOfWheel w) .check).setWheel w
    { s.wheels[w] with
      loss := none, overload := none, contact := none, cutTimer := cutTimer, check := none
      lastResult := if s.wheels[w].check = none then s.wheels[w].lastResult else .aborted }

/-! ### Reports -/

/-- The number that the bytes of a field spell, most significant first (R185). -/
def fieldAt (data : List Byte) (offset width : Nat) : Nat :=
  ((data.drop offset).take width).foldl (fun n b => 256 * n + b.toNat) 0

/-- The field shows the number, where the number fits the field. -/
def Shows (data : List Byte) (offset width n : Nat) : Prop := n < 256 ^ width → fieldAt data offset width = n

/-- The byte shows the bits given, bit 0 first, and 0 in the bits above them. -/
def ShowsBits (data : List Byte) (offset : Nat) (bits : List Bool) : Prop :=
  ∃ b : Byte, data[offset]? = some b ∧ ∀ i, i < 8 → b.getLsbD i = bits.getD i false

/-- The byte shows the item by its place in a list of the values 0, 1, 2 and so on (R184). -/
def ShowsItem {α : Type} (data : List Byte) (offset : Nat) (values : List α) (x : α) : Prop :=
  values[fieldAt data offset 1]? = some x

/-- The policies by their numbers (R184). -/
def policies : List Policy := [.priority, .rotate]

/-- The record states by their numbers (R184). -/
def recordStates : List RecState := [.available, .chosen, .active, .suspect, .held, .spent, .broken]

/-- The service states by their numbers (R184). -/
def serviceStates : List Service := [.unbound, .waiting, .changing, .running, .due, .halted]

/-- The cut phases by their numbers (R184). -/
def cutPhases : List Phase := [.idle, .engage, .cut, .settle]

/-- The break causes by their numbers (R184). -/
def breakCauses : List (Option BreakCause) :=
  [none, some .loss, some .overload, some .overtime, some .contact, some .probe]

/-- The probe results by their numbers (R184). -/
def probeResults : List ProbeResult := [.none, .pass, .low, .high, .noData, .aborted]

/-- The tool report of a record, field by field (R185). -/
structure ToolLayout (r : ToolRecord) (d : List Byte) : Prop where
  length     : d.length = 33
  number     : Shows d 0 2 r.number
  kind       : fieldAt d 2 1 = kindCode (some r.kind)
  state      : ShowsItem d 3 recordStates r.state
  group      : fieldAt d 4 1 = (r.group.map (·.val)).getD 0xFF
  seat       : fieldAt d 5 1 = (r.seat.map (·.val)).getD 0xFF
  presence   : ShowsBits d 6 [r.partsLimit.isSome, r.wearLimit.isSome, r.dressLimit.isSome, r.stockFloor.isSome]
  partsUsed  : Shows d 7 3 r.partsUsed
  partsLimit : Shows d 10 3 (r.partsLimit.getD 0)
  wearUsed   : Shows d 13 3 r.wearUsed
  wearLimit  : Shows d 16 3 (r.wearLimit.getD 0)
  dressUsed  : Shows d 19 2 r.dressUsed
  dressLimit : Shows d 21 2 (r.dressLimit.getD 0)
  stockNow   : Shows d 23 2 r.stockNow
  stockStart : Shows d 25 2 r.stockStart
  stockFloor : Shows d 27 2 (r.stockFloor.getD 0)
  wearCarry  : Shows d 29 2 r.wearCarry
  flags      : ShowsBits d 31 [r.ended.parts, r.ended.wear, r.ended.dress, r.ended.stock, false, false, false, r.warned]
  cause      : ShowsItem d 32 breakCauses r.cause

/-- The group report of a group with a number of bound seats, field by field (R185): bytes 0 to 19 are the layout of
DEFINE (R181). Which byte but 0 shows FAST = yes is left open (log entry 9). -/
structure GroupLayout (g : GroupNo) (grp : Group) (bound : Nat) (d : List Byte) : Prop where
  length          : d.length = 24 + 2 * grp.members.length + grp.queue.length
  group           : fieldAt d 0 1 = g.val
  kind            : fieldAt d 1 1 = kindCode (some grp.kind)
  policy          : ShowsItem d 2 policies grp.params.policy
  nominalLoad     : Shows d 3 2 grp.params.nominalLoad
  warnMargin      : Shows d 5 1 grp.params.warnMargin
  rollWear        : Shows d 6 1 grp.params.rollWear
  lossFloor       : Shows d 7 2 grp.params.lossFloor
  overloadCeiling : Shows d 9 2 grp.params.overloadCeiling
  contactLevel    : Shows d 11 2 grp.params.contactLevel
  engageDelay     : Shows d 13 1 grp.params.engageDelay
  blankingTime    : Shows d 14 1 grp.params.blankingTime
  filterTime      : Shows d 15 2 grp.params.filterTime
  fast            : fieldAt d 17 1 = 0 ↔ grp.params.fast = false
  maxCutTime      : Shows d 18 2 grp.params.maxCutTime
  cursor          : Shows d 20 1 (grp.cursor.getD 0xFF)
  bound           : Shows d 21 1 bound
  members         : Shows d 22 1 grp.members.length ∧ ∀ i n, grp.members[i]? = some n → Shows d (23 + 2 * i) 2 n
  queue           : Shows d (23 + 2 * grp.members.length) 1 grp.queue.length
    ∧ ∀ (i : Nat) (q : SeatNo), grp.queue[i]? = some q → fieldAt d (24 + 2 * grp.members.length + i) 1 = q.val

/-- The seat report of a seat, field by field (R185). -/
structure SeatLayout (s : State) (q : SeatNo) (d : List Byte) : Prop where
  length  : d.length = 8
  seat    : fieldAt d 0 1 = q.val
  service : ShowsItem d 1 serviceStates s.seats[q].service
  phase   : ∀ w : WheelNo, q = seatOfWheel w → ShowsItem d 2 cutPhases s.wheels[w].phase
  group   : fieldAt d 3 1 = (s.seats[q].group.map (·.val)).getD 0xFF
  tool    : (∀ r, s.holder q = some r → Shows d 4 2 r.number) ∧ (s.holder q = none → fieldAt d 4 2 = 0)
  flags   : ShowsBits d 6 [s.wheels[pairedWheel q].cutSeen, s.stations[stationOf q].partOpen]
  result  : ∀ w : WheelNo, q = seatOfWheel w → ShowsItem d 7 probeResults s.wheels[w].lastResult
  dresser : q.val % 4 ≥ 2 → fieldAt d 2 1 = 0 ∧ fieldAt d 7 1 = 0

/-! ### Timers, averages and samples -/

/-- The effective filter time (R54, R135). -/
def filterTime (p : Params) : Nat := if p.fast then (if p.filterTime / 2 = 0 then 1 else p.filterTime / 2) else p.filterTime

/-- A running filter timer after a tick, firing when it has reached the time given (R135). -/
def countedTo (time : Nat) (t : WatchTimer) : WatchTimer :=
  { count := t.count + 1, fires := decide (t.count + 1 ≥ time) }

/-- A filter timer of the wheel seat fired at the last tick. -/
def Fired (s : State) (w : WheelNo) (k : FilterKind) : Prop := ∃ c, s.wheels[w].filter k = some { count := c, fires := true }

/-- The loss condition is armed and met (R132). -/
abbrev LossMet (s : State) (w : WheelNo) (p : Params) (average : Nat) : Prop :=
  InService s (seatOfWheel w) ∧ s.wheels[w].phase = .cut ∧ p.lossFloor > 0 ∧ s.scan.fault = false ∧ average < p.lossFloor

/-- The overload condition is armed and met (R132). -/
abbrev OverloadMet (s : State) (w : WheelNo) (p : Params) (average : Nat) : Prop :=
  InService s (seatOfWheel w) ∧ s.wheels[w].phase = .cut ∧ p.overloadCeiling > 0 ∧ s.scan.fault = false
    ∧ average > p.overloadCeiling

/-- The contact condition is armed and met (R132). -/
abbrev ContactMet (s : State) (w : WheelNo) (p : Params) (average : Nat) : Prop :=
  InService s (seatOfWheel w) ∧ s.wheels[w].phase = .idle ∧ p.contactLevel > 0 ∧ s.scan.fault = false
    ∧ s.wheels[w].check = none ∧ average > p.contactLevel

/-- The wheel seat with its filter timers as a published average leaves them (R134): each starts or runs on where its
condition is armed and met, and is stopped otherwise. -/
def supervised (s : State) (w : WheelNo) (p : Params) (average : Nat) : Wheel :=
  { s.wheels[w] with
    loss := if LossMet s w p average then some (s.wheels[w].loss.getD { count := 0, fires := false }) else none
    overload := if OverloadMet s w p average then some (s.wheels[w].overload.getD { count := 0, fires := false }) else none
    contact := if ContactMet s w p average then some (s.wheels[w].contact.getD { count := 0, fires := false }) else none }

/-- A REF code is in band (R127). -/
abbrev InBand (code : BitVec 10) : Prop := 488 ≤ code.toNat ∧ code.toNat ≤ 536

/-- What one tick makes of a sampled line (R82). `falling` is the mark that a falling edge leaves. -/
structure Sampled (falling : Option Edge) (l l' : Line) (level : Bool) : Prop where
  last   : l'.last = some level
  first  : l.last = some level → l.taken = none → l'.taken = some level ∧ l'.edge = none
  change : ∀ v, l.last = some level → l.taken = some v → v ≠ level →
    l'.taken = some level ∧ l'.edge = if level then some .rising else falling
  still  : l.last ≠ some level ∨ l.taken = some level → l'.taken = l.taken ∧ l'.edge = none

/-- The row of the opcode table that names an event which a tick has made due. -/
def rowOf : Due → Instr
  | .cutRise w => .cutRisingEdge w
  | .cutFall w => .cutFallingEdge w
  | .partEnd st => .partEnd st
  | .engageEnd w => .engageDelayEnd w
  | .blankingEnd w => .blankingTimeEnd w
  | .filter w k => .filterTimerFires w k
  | .overtime w => .overtime w
  | .checkEnd w => .checkDurationEnd w
  | .stretchEnd st => .stretchTimerEnd st
  | .expiry => .watchdogExpiry

/-- The watchdog period in ticks; none for OFF (R173, R175). -/
def periodTicks : WatchdogPeriod → Option Nat
  | .off => none
  | .ms50 => some 50
  | .ms200 => some 200
  | .ms1000 => some 1000

/-! ### Frames -/

/-- A frame is in progress since the last reset, and the address clocked is the one strapped at the fall of nSEL (R162). -/
abbrev Addressed (s : State) (addr : BitVec 2) (f : Frame) : Prop := s.link.frame = some f ∧ addr = f.strap

/-- The state after the fall of nSEL (R162, R164): the straps read and the status byte formed. -/
def begun (s : State) (p : Straps) : State :=
  s.setLink { s.link with frame := some { strap := p.strap, crcen := p.crcen, status := statusByte s, reply := none } }

/-- How the row of a frame begins (log entry 3): at the fall of nSEL it changes the frame in progress and nothing else, and
the frame taken whole is its rise after its fall. -/
def Begins (row : FrameMoment → Instr) (s : State) : Prop :=
  ∀ p : Straps, exec (row (.fall p)) s = .next (begun s p)
    ∧ exec (row (.whole p)) s = exec (row .rise) (begun s p)

/-- The header of a frame: address, kind, and the four bits that the part ignores (R162). -/
def headerByte (addr : BitVec 2) (kind1 kind0 : Bool) (low : BitVec 4) : Byte :=
  addr ++ BitVec.ofBool kind1 ++ BitVec.ofBool kind0 ++ low

/-- The four low bits of a header, in the order they are clocked. -/
def lowBits (low : BitVec 4) : List Bool := [low.getLsbD 3, low.getLsbD 2, low.getLsbD 1, low.getLsbD 0]

/-- The bits shifted out after the header of a frame with the tail given: the bytes given, then zeros (R163). -/
def shifted (tail : List Bool) (bytes : List Byte) : List Bool :=
  (bytes.flatMap bitsOf ++ List.replicate tail.length false).take (tail.length - 4)

/-- What SDO carries over an addressed frame with the tail given: high-impedance to the end of the header, so throughout a
frame that ends inside it (R163). -/
def sdoOver (tail : List Bool) (bytes : List Byte) : Option (List Bool) :=
  if tail.length < 4 then none else some (shifted tail bytes)

/-- The link after an accepted frame (R168, R173). -/
def heard (l : Link) : Link :=
  { l with
    linkErr := false, watchdog := if l.hold then l.watchdog else if l.period = .off then none else some 0
    frame := none }

/-- The link after a rejected frame (R167, R168). -/
def rejected (l : Link) : Link := { l with linkErr := true, frame := none }

/-- The link after an ignored frame (R162). -/
def passed (l : Link) : Link := { l with frame := none }

/-- The clocked bits are a FETCH frame's whose second byte has been taken and, with CRCEN high, is the check byte of its
header (R163, R166). -/
def Matched (crcen : Bool) (addr : BitVec 2) (tail : List Bool) : Prop :=
  ∃ low b rest, tail = lowBits low ++ bitsOf b ++ rest ∧ (crcen = true → b = crc8 [headerByte addr true false low])

/-- The clocked bits are a COMMAND frame's that carries the command: its code, its argument bytes and, with CRCEN high,
the check byte over header, code and arguments (R162, R165, R166). -/
def Carries (crcen : Bool) (addr : BitVec 2) (tail : List Bool) (i : Instr) : Prop :=
  ∃ low code args, encodeCommand i = some (code, args)
    ∧ tail = lowBits low ++ ((code :: args)
        ++ if crcen then [crc8 (headerByte addr false true low :: code :: args)] else []).flatMap bitsOf

/-- The bytes a FETCH returns (R166, R172): L, the reply code and the data of a stored reply, L = 0 otherwise, and with
CRCEN high the check byte over them. -/
def fetched (crcen : Bool) (b : ReplyBuffer) : List Byte :=
  let bytes := match b with
    | .stored r => BitVec.ofNat 8 (1 + r.data.length) :: BitVec.ofNat 8 r.code.code :: r.data
    | .empty => [0]
    | .pending _ => [0]
  if crcen then bytes ++ [crc8 bytes] else bytes

/-! ### What a step keeps -/

/-- What no command on tools, groups and seats touches: the input lines, the load scan, the link but for its buffer, the
device notices and the stretch time, the part-open flags, nRST and SDO, and the model's own fields. -/
structure Background (s t : State) : Prop where
  cutLines  : t.cutLines = s.cutLines
  pendLines : t.pendLines = s.pendLines
  scan      : t.scan = s.scan
  link      : t.link = { s.link with buffer := t.link.buffer }
  device    : t.notices.device = s.notices.device
  stretch   : t.notices.stretch = s.notices.stretch
  partOpen  : ∀ st : StationNo, t.stations[st].partOpen = s.stations[st].partOpen
  nRST      : t.nRST = s.nRST
  sdo       : t.pins.sdo = s.pins.sdo
  freeCount : t.freeCount = s.freeCount
  pending   : t.pending = s.pending

/-- Every record but that of tool `n` is as before, and no record has come or gone. -/
def OthersKept (s t : State) (n : Nat) : Prop :=
  (∀ m, m ≠ n → t.find m = s.find m) ∧ t.table.map (·.number) = s.table.map (·.number)

/-- Every seat but `q` is as before. -/
def OtherSeatsKept (s t : State) (q : SeatNo) : Prop := ∀ p : SeatNo, p ≠ q → t.seats[p] = s.seats[p]

/-- Every wheel seat but `w` is as before. -/
def OtherWheelsKept (s t : State) (w : WheelNo) : Prop := ∀ v : WheelNo, v ≠ w → t.wheels[v] = s.wheels[v]

/-- Every group but `g` is as before. -/
def OtherGroupsKept (s t : State) (g : GroupNo) : Prop := ∀ h : GroupNo, h ≠ g → t.groups[h] = s.groups[h]

/-- Every notice flag set before is set after. -/
def FlagsKept (s t : State) : Prop :=
  (∀ q : SeatNo,
      (s.notices.seats[q].warn = true → t.notices.seats[q].warn = true)
    ∧ (s.notices.seats[q].spent = true → t.notices.seats[q].spent = true)
    ∧ (s.notices.seats[q].change = true → t.notices.seats[q].change = true)
    ∧ (s.notices.seats[q].wait = true → t.notices.seats[q].wait = true)
    ∧ (s.notices.seats[q].breakage = true → t.notices.seats[q].breakage = true)
    ∧ (s.notices.seats[q].check = true → t.notices.seats[q].check = true)
    ∧ (s.notices.seats[q].foreign = true → t.notices.seats[q].foreign = true))
  ∧ (s.notices.device.reset = true → t.notices.device.reset = true)
  ∧ (s.notices.device.hold = true → t.notices.device.hold = true)
  ∧ (s.notices.device.sense = true → t.notices.device.sense = true)

/-- Selection at `u` has taken for seat `q` the member `n` at index `i` of group `g` (R67). -/
structure TookMember (u t : State) (q : SeatNo) (g : GroupNo) (grp : Group) (i n : Nat) : Prop where
  record : ∃ r, u.find n = some r ∧ t.find n = some { r with state := .chosen, seat := some q }
  others : OthersKept u t n
  seats  : t.seats = u.seats.set q { service := .changing, group := some g }
  groups : t.groups = u.groups.set g
    (some { grp with cursor := if grp.params.policy = .rotate then some i else grp.cursor })
  rest   : t = { u.raise q .change with table := t.table, seats := t.seats, groups := t.groups }

/-- Selection at `u` has taken no member, and seat `q` waits at the tail of the queue of group `g` (R68). -/
structure JoinedQueue (u t : State) (q : SeatNo) (g : GroupNo) (grp : Group) : Prop where
  seats  : t.seats = u.seats.set q { service := .waiting, group := some g }
  groups : t.groups = u.groups.set g (some { grp with queue := grp.queue ++ [q] })
  rest   : t = { u.raise q .wait with seats := t.seats, groups := t.groups }

/-! ### After a reset -/

/-- Every block as its chapter gives it after a reset (R1, R54, R74, R82, R119, R132, R157, R178). -/
structure AfterReset (t : State) : Prop where
  table    : t.table = []
  groups   : ∀ g : GroupNo, t.groups[g] = none
  seats    : ∀ q : SeatNo, t.seats[q].service = .unbound ∧ t.seats[q].group = none
  cuts     : ∀ w : WheelNo, t.wheels[w].phase = .idle ∧ t.wheels[w].phaseTimer = none ∧ t.wheels[w].cutSeen = false
    ∧ t.wheels[w].accumulator = 0
  timers   : ∀ w : WheelNo, t.wheels[w].loss = none ∧ t.wheels[w].overload = none ∧ t.wheels[w].contact = none
    ∧ t.wheels[w].cutTimer = none ∧ t.wheels[w].check = none ∧ t.wheels[w].lastResult = .none
  stations : ∀ st : StationNo, t.stations[st].partOpen = false ∧ t.stations[st].stretch = none
  cutLine  : ∀ w : WheelNo, t.cutLines[w] = { taken := none, last := none, edge := none }
  pendLine : ∀ st : StationNo, t.pendLines[st] = { taken := none, last := none, edge := none }
  scan     : t.scan.pointer = 0 ∧ t.scan.run = 0 ∧ t.scan.fault = false
  channels : ∀ c : ChannelNo, t.scan.channels[c] = { count := 8, sum := 0, held := 0, average := 0, fresh := false }
  flags    : ∀ q : SeatNo, t.notices.seats[q].any = false
  device   : t.notices.device.reset = true ∧ t.notices.device.hold = false ∧ t.notices.device.sense = false
  stretch  : t.notices.stretch = .ms1000
  link     : t.link.buffer = .empty ∧ t.link.linkErr = false ∧ t.link.hold = false ∧ t.link.period = .off
    ∧ t.link.watchdog = none ∧ t.link.millis = 0 ∧ t.link.frame = none
  permits  : ∀ st : StationNo, t.pins.permit[st] = false
  lamps    : ∀ st : StationNo, t.pins.lamp[st] = false
  nATTN    : t.pins.nATTN = false
  sdo      : t.pins.sdo = none
  status   : statusByte t = 0x80

/-! ### Invariants -/

/-- The table is in ascending order of tool number, without repeats, and holds at most 128 records (R1). -/
abbrev TableOrdered (s : State) : Prop := (s.table.map (·.number)).Pairwise (· < ·) ∧ s.table.length ≤ 128

/-- The averaging counts that a channel can have (R120). -/
def averagingCounts : List Nat := [1, 2, 4, 8, 16, 32, 64, 128]

/-- The load scan is within the bounds of R120 and R127. -/
structure ScanBounded (s : State) : Prop where
  count   : ∀ c : ChannelNo, s.scan.channels[c].count ∈ averagingCounts
  held    : ∀ c : ChannelNo, s.scan.channels[c].held < s.scan.channels[c].count
  sum     : ∀ c : ChannelNo, s.scan.channels[c].sum ≤ s.scan.channels[c].held * 1023
  average : ∀ c : ChannelNo, s.scan.channels[c].average ≤ 1023
  run     : s.scan.run ≤ 2

/-- A record within the ranges and rules of R2 that need no other part of the state: its tool number, its measures and its
limits are in their ranges (R2, R4), stock now is at most stock start (R5), its ended set is the one its measures give (R9, R10), its seat and break cause stand exactly in the states of R3 and R7,
and an AVAILABLE or CHOSEN record has no ended measure (R14, R26). -/
structure RecordSound (r : ToolRecord) : Prop where
  number  : 1 ≤ r.number ∧ r.number ≤ 65534
  parts   : r.partsUsed ≤ 16777215 ∧ r.partsLimit.getD 0 ≤ 16777215
  wear    : r.wearUsed ≤ 16777215 ∧ r.wearLimit.getD 0 ≤ 16777215
  dress   : r.dressUsed ≤ 65535 ∧ r.dressLimit.getD 0 ≤ 65535
  stock   : r.stockNow ≤ r.stockStart ∧ r.stockStart ≤ 65535 ∧ r.stockFloor.getD 0 ≤ 65535
  ended   : r.ended = endedOf r
  seat    : r.seat.isSome = true ↔ r.state = .chosen ∨ r.state = .active ∨ r.state = .suspect
  cause   : r.cause.isSome = true ↔ r.state = .suspect ∨ r.state = .broken
  unended : r.state = .available ∨ r.state = .chosen → r.ended.isEmpty = true

/-- Every record of the table is sound, and the table is in order. -/
def TableSound (s : State) : Prop := TableOrdered s ∧ ∀ r ∈ s.table, RecordSound r

/-- The parameters of a group within the ranges of R54. -/
structure ParamsSound (p : Params) : Prop where
  nominalLoad     : 1 ≤ p.nominalLoad ∧ p.nominalLoad ≤ 1023
  warnMargin      : 1 ≤ p.warnMargin ∧ p.warnMargin ≤ 50
  rollWear        : p.rollWear ≤ 255
  lossFloor       : p.lossFloor ≤ 1023
  overloadCeiling : p.overloadCeiling ≤ 1023
  contactLevel    : p.contactLevel ≤ 1023
  engageDelay     : p.engageDelay ≤ 255
  blankingTime    : p.blankingTime ≤ 255
  filterTime      : 1 ≤ p.filterTime ∧ p.filterTime ≤ 1000
  maxCutTime      : p.maxCutTime ≤ 65535

/-- The record is the only one that names the seat (R75). -/
def Names (s : State) (r : ToolRecord) (q : SeatNo) : Prop :=
  r ∈ s.table ∧ r.seat = some q ∧ ∀ x ∈ s.table, x.seat = some q → x = r

/-- The states of records, groups, seats, cuts and the watchdog agree (R2, R3, R54, R59, R63, R69, R70, R75, R93, R132, R173). -/
structure Consistent (s : State) : Prop where
  table    : TableSound s
  spent    : ∀ r ∈ s.table, r.state = .spent → HasEnd r
  loose    : ∀ r ∈ s.table, r.group = none → r.warned = false ∧ r.wearCarry = 0
  grouped  : ∀ r ∈ s.table, ∀ g, r.group = some g → ∃ grp, s.groups[g] = some grp ∧ r.number ∈ grp.members
    ∧ r.kind = grp.kind ∧ r.wearCarry < grp.params.nominalLoad
  members  : ∀ (g : GroupNo) (grp : Group), s.groups[g] = some grp → grp.members.Nodup ∧ grp.members.length ≤ 12
    ∧ 1 ≤ grp.params.nominalLoad ∧ ∀ n ∈ grp.members, ∃ r, s.find n = some r ∧ r.group = some g
  params   : ∀ (g : GroupNo) (grp : Group), s.groups[g] = some grp → ParamsSound grp.params
  cursor   : ∀ (g : GroupNo) (grp : Group) (c : Nat), s.groups[g] = some grp → grp.cursor = some c →
    grp.params.policy = .rotate ∧ c < grp.members.length
  queue    : ∀ (g : GroupNo) (grp : Group), s.groups[g] = some grp → grp.queue.Nodup
    ∧ ∀ q ∈ grp.queue, s.seats[q].service = .waiting ∧ s.seats[q].group = some g
  served   : ∀ (g : GroupNo) (grp : Group), s.groups[g] = some grp → grp.queue ≠ [] →
    ∀ n ∈ grp.members, s.eligible g n = false
  bound    : ∀ q : SeatNo, s.seats[q].service = .unbound ↔ s.seats[q].group = none
  kinds    : ∀ (q : SeatNo) (g : GroupNo), s.seats[q].group = some g → ∃ grp, s.groups[g] = some grp
    ∧ (grp.kind = .wheel ↔ q.val % 4 < 2) ∧ (s.seats[q].service = .waiting → q ∈ grp.queue)
  seated   : ∀ r ∈ s.table, ∀ q : SeatNo, r.seat = some q → r.group ≠ none ∧ r.group = s.seats[q].group
  vacant   : ∀ q : SeatNo, s.seats[q].service = .unbound ∨ s.seats[q].service = .waiting →
    ∀ r ∈ s.table, r.seat ≠ some q
  changing : ∀ q : SeatNo, s.seats[q].service = .changing → ∃ r, Names s r q ∧ r.state = .chosen
  running  : ∀ q : SeatNo, s.seats[q].service = .running → ∃ r, Names s r q ∧ r.state = .active ∧ ¬ HasEnd r
  due      : ∀ q : SeatNo, s.seats[q].service = .due → s.stations[stationOf q].partOpen = true
    ∧ ∃ r, Names s r q ∧ r.state = .active ∧ HasEnd r
  halted   : ∀ q : SeatNo, s.seats[q].service = .halted → q.val % 4 < 2 ∧ ∃ r, Names s r q ∧ r.state = .suspect
  resting  : ∀ w : WheelNo, ¬ HoldsTool s (seatOfWheel w) → s.wheels[w].phase = .idle ∧ s.wheels[w].cutSeen = false
  cutTimer : ∀ w : WheelNo, s.wheels[w].cutTimer ≠ none ↔ CutOpen s w
  phases   : ∀ w : WheelNo, s.wheels[w].phaseTimer ≠ none ↔ s.wheels[w].phase = .engage ∨ s.wheels[w].phase = .settle
  load     : ∀ w : WheelNo, s.wheels[w].accumulator = 0 ∨ s.wheels[w].phase = .cut
  cutSeen  : ∀ w : WheelNo, s.wheels[w].cutSeen = true → s.stations[stationOfWheel w].partOpen = true
  checks   : ∀ w : WheelNo, s.wheels[w].check ≠ none → InService s (seatOfWheel w) ∧ s.wheels[w].phase = .idle
    ∧ s.scan.fault = false ∧ s.wheels[w].contact = none
  loaded   : ∀ w : WheelNo, (s.wheels[w].loss ≠ none ∨ s.wheels[w].overload ≠ none) →
    InService s (seatOfWheel w) ∧ s.wheels[w].phase = .cut ∧ s.scan.fault = false
  touching : ∀ w : WheelNo, s.wheels[w].contact ≠ none →
    InService s (seatOfWheel w) ∧ s.wheels[w].phase = .idle ∧ s.scan.fault = false
  watchdog : s.link.watchdog ≠ none → s.link.hold = false ∧ s.link.period ≠ .off

/-- The code of each command (R180). -/
def codeOf : Instr → Option Nat
  | .enrol _ _ _ _ => some 0x10
  | .edit _ _ _ _ => some 0x11
  | .retire _ => some 0x12
  | .query _ => some 0x13
  | .next _ => some 0x14
  | .lock _ => some 0x15
  | .unlock _ => some 0x16
  | .define _ => some 0x20
  | .link _ _ _ => some 0x21
  | .unlink _ => some 0x22
  | .group _ => some 0x23
  | .bind _ _ => some 0x30
  | .unbind _ => some 0x31
  | .mount _ _ => some 0x32
  | .swap _ => some 0x33
  | .whereSeat _ => some 0x34
  | .release _ => some 0x35
  | .condemn _ => some 0x36
  | .check _ _ _ _ => some 0x37
  | .dress _ _ => some 0x40
  | .readLoad _ => some 0x50
  | .setSense _ _ => some 0x51
  | .takeNotices => some 0x60
  | .setLink _ _ => some 0x61
  | .resume => some 0x62
  | .restart => some 0x63
  | .ident => some 0x64
  | _ => none

/-- The codes of R180, each with its number of argument bytes. -/
def commandTable : List (Nat × Nat) :=
  [(0x10, 24), (0x11, 24), (0x12, 2), (0x13, 2), (0x14, 2), (0x15, 2), (0x16, 2), (0x20, 20), (0x21, 4), (0x22, 2),
   (0x23, 1), (0x30, 2), (0x31, 1), (0x32, 3), (0x33, 1), (0x34, 1), (0x35, 1), (0x36, 1), (0x37, 6), (0x40, 3),
   (0x50, 1), (0x51, 2), (0x60, 0), (0x61, 2), (0x62, 0), (0x63, 0), (0x64, 0)]

end Sys2Proof.Safety
end

