-- ==== Sys2Proof/Certificates/Slice0/Obligations.lean ====
section
/-! DEFINITION. The statements about the LV6120 for the provers, in the order of the spec's chapters. A statement about a
command says what state its step leaves, written out with the named writes of Sys2Proof/Machine/Ops.lean; statements of
their own say what those writes and the shared operations do. -/

open Sys2Proof Sys2Proof.Machine Sys2Proof.Safety

/-! ### Steps -/

/-- A step runs the command at the front of the queue on the state with the rest of the queue. That commands stand in a
queue, first in, first out, is the model's choice (log entry 1). -/
def Obligations.StepRunsFrontCommand : Prop :=
  ∀ (s : State) (c : Instr) (rest : List Instr), s.pending = c :: rest → step s = exec c { s with pending := rest }

/-- What each named write writes, and that it leaves every other item and the rest of the state as they were: a record
written, added or removed, a group, a seat and its service state, a wheel seat, a station, a channel, the link, the notice
set, what SDO carried, and a notice raised at a seat. -/
def Obligations.NamedWritesTouchOneItem : Prop :=
  ∀ s : State,
    (∀ (r : ToolRecord), s.putRecord r = { s with table := (s.putRecord r).table }
      ∧ ((s.find r.number).isSome = true →
        (s.putRecord r).find r.number = some r ∧ OthersKept s (s.putRecord r) r.number))
    ∧ (∀ (r : ToolRecord), s.addRecord r = { s with table := (s.addRecord r).table }
      ∧ (s.find r.number = none → TableOrdered s →
        (s.addRecord r).find r.number = some r ∧ (∀ m, m ≠ r.number → (s.addRecord r).find m = s.find m)
          ∧ (s.addRecord r).table.Perm (r :: s.table)
          ∧ ((s.addRecord r).table.map (·.number)).Pairwise (· < ·)))
    ∧ (∀ n, s.removeRecord n = { s with table := (s.removeRecord n).table }
        ∧ (s.removeRecord n).find n = none ∧ (∀ m, m ≠ n → (s.removeRecord n).find m = s.find m)
        ∧ (TableOrdered s → (s.find n).isSome = true → (s.removeRecord n).table.length + 1 = s.table.length))
    ∧ (∀ (g : GroupNo) (x : Option Group), s.setGroup g x = { s with groups := (s.setGroup g x).groups }
        ∧ (s.setGroup g x).groups[g] = x ∧ OtherGroupsKept s (s.setGroup g x) g)
    ∧ (∀ (q : SeatNo) (x : Seat), s.setSeat q x = { s with seats := (s.setSeat q x).seats }
        ∧ (s.setSeat q x).seats[q] = x ∧ OtherSeatsKept s (s.setSeat q x) q)
    ∧ (∀ (q : SeatNo) (v : Service), s.setService q v = { s with seats := (s.setService q v).seats }
        ∧ (s.setService q v).seats[q] = { s.seats[q] with service := v } ∧ OtherSeatsKept s (s.setService q v) q)
    ∧ (∀ (w : WheelNo) (x : Wheel), s.setWheel w x = { s with wheels := (s.setWheel w x).wheels }
        ∧ (s.setWheel w x).wheels[w] = x ∧ OtherWheelsKept s (s.setWheel w x) w)
    ∧ (∀ (st : StationNo) (x : Station), s.setStation st x = { s with stations := (s.setStation st x).stations }
        ∧ (s.setStation st x).stations[st] = x
        ∧ ∀ v : StationNo, v ≠ st → (s.setStation st x).stations[v] = s.stations[v])
    ∧ (∀ (c : ChannelNo) (x : Channel),
        s.setChannel c x = { s with scan := { s.scan with channels := (s.setChannel c x).scan.channels } }
        ∧ (s.setChannel c x).scan.channels[c] = x
        ∧ ∀ d : ChannelNo, d ≠ c → (s.setChannel c x).scan.channels[d] = s.scan.channels[d])
    ∧ (∀ x : Link, s.setLink x = { s with link := x })
    ∧ (∀ x : Notices, s.setNotices x = { s with notices := x })
    ∧ (∀ x : Option (List Bool), s.setSdo x = { s with pins := { s.pins with sdo := x } })
    ∧ (∀ (q : SeatNo) (n : SeatNotice),
        s.raise q n = { s with notices := { s.notices with seats := (s.raise q n).notices.seats } }
        ∧ (s.raise q n).notices.seats[q] = (match n with
          | .warn => { s.notices.seats[q] with warn := true }
          | .spent => { s.notices.seats[q] with spent := true }
          | .change => { s.notices.seats[q] with change := true }
          | .wait => { s.notices.seats[q] with wait := true }
          | .breakage => { s.notices.seats[q] with breakage := true }
          | .check => { s.notices.seats[q] with check := true }
          | .foreign => { s.notices.seats[q] with foreign := true })
        ∧ ∀ p : SeatNo, p ≠ q → (s.raise q n).notices.seats[p] = s.notices.seats[p])

/-- The end of a step drives PERMIT, LAMP and nATTN from the states as they stand, starts the stretch timer of each
station whose lit condition begins, and changes nothing else. -/
def Obligations.StepEndDrivesOutputs : Prop :=
  ∀ s a : State,
    PinsDriven (commit s a) ∧ (commit s a).pins.sdo = a.pins.sdo
    ∧ (∀ st : StationNo, ¬ Lit s st → Lit a st →
        (commit s a).stations[st] = { a.stations[st] with stretch := some { count := 0, time := a.notices.stretch.ticks } })
    ∧ (∀ st : StationNo, (Lit s st ∨ ¬ Lit a st) → (commit s a).stations[st] = a.stations[st])
    ∧ commit s a = { a with stations := (commit s a).stations, pins := (commit s a).pins }

/-- At every step PERMITs, LAMPs and nATTN go on following the conditions of R96, R159 and R154. -/
def Obligations.EveryStepDrivesOutputs : Prop := ∀ s t : State, PinsDriven s → step s = .next t → PinsDriven t

/-! ### Resets -/

/-- Power-on, a low level on nRST and RESTART act alike on every block and differ only in the cause recorded. That the
values stand while nRST still holds the part in reset is the model's choice (log entry 24), and so is that SDO keeps nothing
of a frame abandoned (log entry 17). -/
def Obligations.ResetsActAlike : Prop :=
  ∀ s : State,
    (∀ n, ∃ t, exec (.powerOn n) s = .next t ∧ AfterReset t ∧ t.link.cause = .power ∧ t.nRST = n)
    ∧ (s.nRST = true → ∃ t, exec .nrstLow s = .next t ∧ AfterReset t ∧ t.link.cause = .pin ∧ t.nRST = false)
    ∧ (Ready s .restart → ∃ t, exec .restart s = .next t ∧ AfterReset t ∧ t.link.cause = .restart ∧ t.nRST = true)
    ∧ (s.nRST = false → ∃ t, exec .nrstHigh s = .next t ∧ AfterReset t ∧ t.link.cause = s.link.cause ∧ t.nRST = true)

/-- While nRST is low the part is held in reset: only power-on and the end of the low level act (log entry 10). -/
def Obligations.HeldInResetNothingActs : Prop :=
  ∀ (i : Instr) (s : State), s.nRST = false → (∀ n, i ≠ .powerOn n) → i ≠ .nrstHigh → exec i s = .next s

/-- The machine at its reset state: every block at its reset value, and every invariant stated below holds there. That
the cause is POWER and nRST is high is the model's choice (log entry 2). -/
def Obligations.InvariantsHoldAtReset : Prop :=
  AfterReset State.reset ∧ PinsDriven State.reset ∧ ScanBounded State.reset ∧ TableSound State.reset
    ∧ Consistent State.reset ∧ State.reset.pending = [] ∧ State.reset.nRST = true ∧ State.reset.link.cause = .power

/-! ### The byte layouts of the link -/

/-- The twenty-seven command codes and the number of argument bytes of each. -/
def Obligations.CodesNameTheCommands : Prop :=
  (∀ (code : Byte) (args : List Byte),
      (decodeCommand code args).isSome = true ↔ (code.toNat, args.length) ∈ commandTable)
  ∧ ∀ (code : Byte) (args : List Byte) (i : Instr), decodeCommand code args = some i → codeOf i = some code.toNat

/-- Decoding the bytes of a command gives the command back, and only its own bytes give it. -/
def Obligations.CommandBytesRoundTrip : Prop :=
  (∀ i : Instr, i.isCommand = true →
      ∃ code args, encodeCommand i = some (code, args) ∧ decodeCommand code args = some i)
  ∧ ∀ (code : Byte) (args : List Byte) (i : Instr), decodeCommand code args = some i → encodeCommand i = some (code, args)

/-- A command whose argument checks fail is refused BAD_ARG. -/
def Obligations.IllFormedCommandRefused : Prop :=
  ∀ (i : Instr) (s : State), i.isCommand = true → i.wf = false → Ready s i → Answers i s .badArg

/-- A refused command changes no state: nothing but the reply differs. -/
def Obligations.RefusedCommandChangesNothing : Prop :=
  ∀ (i : Instr) (s t : State) (r : Reply), PinsDriven s → i.isCommand = true → exec i s = .next t →
    Stored t r → r.code.isRefusal = true → OnlyReply s t

/-- The tool report, the group report and the seat report show every field at its offset, by its number; the load, notices
and ident reports have their lengths (their fields are in the statements on READ LOAD, TAKE NOTICES and IDENT); and a reply
whose code is not DONE carries no data. -/
def Obligations.ToolGroupAndSeatReportsShowFields : Prop :=
  (∀ r : ToolRecord, ToolLayout r (toolReport r))
  ∧ (∀ (g : GroupNo) (grp : Group) (n : Nat), GroupLayout g grp n (groupReport g grp n))
  ∧ (∀ (s : State) (q : SeatNo), SeatLayout s q (seatReport s q))
  ∧ (∀ (c : ChannelNo) (ch : Channel), (loadReport c ch).length = 5)
  ∧ (∀ n : Notices, (noticesReport n).length = 17)
  ∧ (∀ s : State, (identReport s).length = 15)
  ∧ (∀ (i : Instr) (s t : State) (r : Reply), i.isCommand = true → Ready s i → exec i s = .next t → Stored t r →
      r.code ≠ .done → r.data = [])

/-! ### Tool records -/

/-- When a measure is ended (R9), and when a record is within the warn margin of its group (R49). -/
def Obligations.EndedMeasuresAndWarnings : Prop :=
  (∀ r : ToolRecord,
      ((endedOf r).parts = true ↔ ∃ l, r.partsLimit = some l ∧ r.partsUsed ≥ l)
      ∧ ((endedOf r).wear = true ↔ ∃ l, r.wearLimit = some l ∧ r.wearUsed ≥ l)
      ∧ ((endedOf r).dress = true ↔ ∃ l, r.dressLimit = some l ∧ r.dressUsed ≥ l)
      ∧ ((endedOf r).stock = true ↔ ∃ f, r.stockFloor = some f ∧ r.stockNow ≤ f))
  ∧ (∀ (r : ToolRecord),
      computedWarning r none = false
      ∧ ∀ m : Nat, computedWarning r (some m) = true ↔
        (∃ l, r.partsLimit = some l ∧ r.partsUsed < l ∧ (l - r.partsUsed) * 100 ≤ l * m)
        ∨ (∃ l, r.wearLimit = some l ∧ r.wearUsed < l ∧ (l - r.wearUsed) * 100 ≤ l * m)
        ∨ (∃ l, r.dressLimit = some l ∧ r.dressUsed < l ∧ (l - r.dressUsed) * 100 ≤ l * m)
        ∨ (∃ f, r.stockFloor = some f ∧ f < r.stockNow ∧ (r.stockNow - f) * 100 ≤ (r.stockStart - f) * m))

/-- ENROL inserts the new record. -/
def Obligations.EnrolInsertsTheRecord : Prop :=
  ∀ (tool : Half) (kind presence : Byte) (m : Measures) (k : Kind) (s : State) (r r' : ToolRecord),
    Ready s (.enrol tool kind presence m) → tool ≠ 0 → tool ≠ 0xFFFF →
    (kind = 1 ∧ k = .wheel ∨ kind = 2 ∧ k = .dresser) → s.find tool.toNat = none → s.table.length < 128 →
    r = { number := tool.toNat, kind := k, state := .available, group := none, seat := none
          partsUsed := m.partsUsed.toNat, partsLimit := if presence.getLsbD 0 then some m.partsLimit.toNat else none
          wearUsed := m.wearUsed.toNat, wearLimit := if presence.getLsbD 1 then some m.wearLimit.toNat else none
          wearCarry := 0
          dressUsed := m.dressUsed.toNat, dressLimit := if presence.getLsbD 2 then some m.dressLimit.toNat else none
          stockNow := m.stockNow.toNat, stockStart := m.stockNow.toNat
          stockFloor := if presence.getLsbD 3 then some m.stockFloor.toNat else none
          warned := false, ended := EndedSet.empty, cause := none } →
    r' = { r with ended := endedOf r } →
    CompletesAs (.enrol tool kind presence m) s
      (s.addRecord { r' with state := if HasEnd r' then .spent else .available }) done

/-- The checks of ENROL and EDIT, in their order. -/
def Obligations.EnrolAndEditChecks : Prop :=
  (∀ (tool : Half) (kind presence : Byte) (m : Measures) (s : State) (c : ReplyCode),
    Ready s (.enrol tool kind presence m) →
    FirstFailing [(tool = 0 ∨ tool = 0xFFFF ∨ (kind ≠ 1 ∧ kind ≠ 2), .badArg),
                  ((s.find tool.toNat).isSome = true, .duplicate),
                  (s.table.length ≥ 128, .tableFull)] c →
    Answers (.enrol tool kind presence m) s c)
  ∧ (∀ (tool : Half) (apply presence : Byte) (m : Measures) (s : State) (c : ReplyCode),
    Ready s (.edit tool apply presence m) →
    FirstFailing [(tool = 0 ∨ tool = 0xFFFF, .badArg), (s.find tool.toNat = none, .unknownTool),
                  (∃ r, s.find tool.toNat = some r ∧ r.state = .broken, .badState)] c →
    Answers (.edit tool apply presence m) s c)

/-- EDIT of a record that no seat has mounted: AVAILABLE, CHOSEN, HELD or SPENT. -/
def Obligations.EditOfUnmountedRecord : Prop :=
  ∀ (tool : Half) (apply presence : Byte) (m : Measures) (s : State) (r r' : ToolRecord),
    Ready s (.edit tool apply presence m) → tool ≠ 0 → tool ≠ 0xFFFF → s.find tool.toNat = some r →
    r' = judged (s.marginOf r) (edited apply presence m r) →
    (r.state = .available →
      CompletesAs (.edit tool apply presence m) s
        (s.putRecord { r' with state := if NewEnd r r' then .spent else .available }) done)
    ∧ (r.state = .chosen → ¬ NewEnd r r' → CompletesAs (.edit tool apply presence m) s (s.putRecord r') done)
    ∧ (∀ q, r.state = .chosen → NewEnd r r' → r.seat = some q →
      CompletesAs (.edit tool apply presence m) s
        (select (s.putRecord { r' with state := .spent, seat := none }) q none) done)
    ∧ (r.state = .held → CompletesAs (.edit tool apply presence m) s (s.putRecord r') done)
    ∧ (r.state = .spent → (HasEnd r' ∨ ¬ HasEnd r) → CompletesAs (.edit tool apply presence m) s (s.putRecord r') done)
    ∧ (r.state = .spent → HasEnd r → ¬ HasEnd r' →
      CompletesAs (.edit tool apply presence m) s
        (inform (s.putRecord { r' with state := .available }) r.number) done)

/-- EDIT of a mounted record: a SUSPECT record is only written; a new end of an ACTIVE record takes a RUNNING seat to DUE
or into a change, and an un-ending returns a DUE seat to RUNNING. -/
def Obligations.EditOfMountedRecord : Prop :=
  ∀ (tool : Half) (apply presence : Byte) (m : Measures) (s u : State) (r r' : ToolRecord) (q : SeatNo),
    Ready s (.edit tool apply presence m) → tool ≠ 0 → tool ≠ 0xFFFF → s.find tool.toNat = some r → r.seat = some q →
    (r.state = .active ∨ r.state = .suspect) → r' = judged (s.marginOf r) (edited apply presence m r) →
    u = raiseIf (raiseIf (s.putRecord r') (NewEnd r r' ∧ r.state = .active) q .spent)
      (r.warned = false ∧ r'.warned = true) q .warn →
    (r.state = .suspect → CompletesAs (.edit tool apply presence m) s u done)
    ∧ (r.state = .active → NewEnd r r' → s.seats[q].service = .running → s.stations[stationOf q].partOpen = true →
        CompletesAs (.edit tool apply presence m) s (u.setService q .due) done)
    ∧ (r.state = .active → NewEnd r r' → s.seats[q].service = .running → s.stations[stationOf q].partOpen = false →
        CompletesAs (.edit tool apply presence m) s (beginChange u q) done)
    ∧ (r.state = .active → NewEnd r r' → s.seats[q].service = .due → CompletesAs (.edit tool apply presence m) s u done)
    ∧ (r.state = .active → HasEnd r → ¬ HasEnd r' → s.seats[q].service = .due →
        CompletesAs (.edit tool apply presence m) s (u.setService q .running) done)
    ∧ (r.state = .active → ¬ NewEnd r r' → (HasEnd r' ∨ ¬ HasEnd r ∨ s.seats[q].service = .running) →
        CompletesAs (.edit tool apply presence m) s u done)

/-- RETIRE removes the record from the member list of its group and from the table, unless it is at a seat; UNLINK removes it
from the member list and leaves its state and ended set. -/
def Obligations.RetireAndUnlinkRemoveTheTool : Prop :=
  (∀ (tool : Half) (s : State) (r : ToolRecord),
      Ready s (.retire tool) → tool ≠ 0 → tool ≠ 0xFFFF → s.find tool.toNat = some r →
      ((r.state = .chosen ∨ r.state = .active ∨ r.state = .suspect) → Answers (.retire tool) s .inUse)
      ∧ ((r.state = .available ∨ r.state = .held ∨ r.state = .spent ∨ r.state = .broken) →
        (r.group = none → CompletesAs (.retire tool) s (s.removeRecord tool.toNat) done)
        ∧ ∀ g grp, r.group = some g → s.groups[g] = some grp →
          CompletesAs (.retire tool) s ((s.setGroup g (some (without grp tool.toNat))).removeRecord tool.toNat) done))
  ∧ (∀ (tool : Half) (s : State) (r : ToolRecord),
      Ready s (.unlink tool) → tool ≠ 0 → tool ≠ 0xFFFF → s.find tool.toNat = some r →
      (r.group = none → Answers (.unlink tool) s .noGroup)
      ∧ (∀ g, r.group = some g → (r.state = .chosen ∨ r.state = .active ∨ r.state = .suspect) →
          Answers (.unlink tool) s .inUse)
      ∧ (∀ g grp, r.group = some g → s.groups[g] = some grp →
          (r.state = .available ∨ r.state = .held ∨ r.state = .spent ∨ r.state = .broken) →
          CompletesAs (.unlink tool) s
            ((s.setGroup g (some (without grp tool.toNat))).putRecord
              { r with group := none, wearCarry := 0, warned := false }) done))

/-- A tool number that names no record is refused UNKNOWN_TOOL by RETIRE, QUERY, LOCK, UNLOCK and UNLINK (EDIT, LINK and
MOUNT have statements of their own), and RELEASE and CONDEMN of a seat that is not HALTED are refused BAD_STATE. -/
def Obligations.NamedThingMustExist : Prop :=
  (∀ (tool : Half) (s : State) (i : Instr),
      i ∈ [Instr.retire tool, .query tool, .lock tool, .unlock tool, .unlink tool] → Ready s i →
      tool ≠ 0 → tool ≠ 0xFFFF → s.find tool.toNat = none → Answers i s .unknownTool)
  ∧ (∀ (seat : Byte) (s : State) (q : SeatNo), seat.toNat = q.val → s.seats[q].service ≠ .halted →
      (Ready s (.release seat) → Answers (.release seat) s .badState)
      ∧ (Ready s (.condemn seat) → Answers (.condemn seat) s .badState))

/-- QUERY, NEXT, GROUP, WHERE and IDENT report and change no state. -/
def Obligations.ReportingCommandsReport : Prop :=
  (∀ (tool : Half) (s : State) (r : ToolRecord), Ready s (.query tool) → tool ≠ 0 → tool ≠ 0xFFFF →
    s.find tool.toNat = some r → CompletesAs (.query tool) s s { code := .done, data := toolReport r })
  ∧ (∀ (t : Half) (s : State) (r : ToolRecord), Ready s (.next t) → TableOrdered s → r ∈ s.table → t.toNat < r.number →
    (∀ x ∈ s.table, t.toNat < x.number → r.number ≤ x.number) →
    CompletesAs (.next t) s s { code := .done, data := toolReport r })
  ∧ (∀ (t : Half) (s : State), Ready s (.next t) → (∀ x ∈ s.table, x.number ≤ t.toNat) →
    CompletesAs (.next t) s s { code := .endOfTable, data := [] })
  ∧ (∀ (group : Byte) (s : State) (g : GroupNo) (grp : Group), Ready s (.group group) → group.toNat = g.val →
    (s.groups[g] = none → Answers (.group group) s .noGroup)
    ∧ (s.groups[g] = some grp →
      CompletesAs (.group group) s s { code := .done, data := groupReport g grp (s.boundSeats g) }))
  ∧ (∀ (seat : Byte) (s : State) (q : SeatNo), Ready s (.whereSeat seat) → seat.toNat = q.val →
    CompletesAs (.whereSeat seat) s s { code := .done, data := seatReport s q })
  ∧ (∀ s : State, Ready s .ident →
    CompletesAs .ident s s { code := .done, data :=
      [0x4E, 0x5A, 0x17, 0xE8, 1, 128, 32, 16,
       (match s.link.cause with | .power => 1 | .pin => 2 | .restart => 3)]
      ++ [s.link.millis.extractLsb' 24 8, s.link.millis.extractLsb' 16 8, s.link.millis.extractLsb' 8 8,
          s.link.millis.extractLsb' 0 8]
      ++ [(match s.link.period with | .off => 0 | .ms50 => 1 | .ms200 => 2 | .ms1000 => 3),
          (match s.notices.stretch with | .ms500 => 0 | .ms1000 => 1 | .ms2000 => 2 | .ms4000 => 3)] })

/-- LOCK takes an AVAILABLE, SPENT or CHOSEN record to HELD, and the seat of a CHOSEN one selects again; UNLOCK takes a HELD
record to AVAILABLE, where it may be granted, or to SPENT if it has an ended measure. -/
def Obligations.LockHoldsAndUnlockReturns : Prop :=
  (∀ (tool : Half) (s : State) (c : ReplyCode), Ready s (.lock tool) →
      FirstFailing [(tool = 0 ∨ tool = 0xFFFF, .badArg), (s.find tool.toNat = none, .unknownTool)] c →
      Answers (.lock tool) s c)
  ∧ (∀ (tool : Half) (s : State) (r : ToolRecord),
      Ready s (.lock tool) → tool ≠ 0 → tool ≠ 0xFFFF → s.find tool.toNat = some r →
      ((r.state = .available ∨ r.state = .spent) → CompletesAs (.lock tool) s (s.putRecord { r with state := .held }) done)
      ∧ (∀ q, r.state = .chosen → r.seat = some q →
          CompletesAs (.lock tool) s (select (s.putRecord { r with state := .held, seat := none }) q none) done)
      ∧ (r.state = .held → CompletesAs (.lock tool) s s done)
      ∧ ((r.state = .active ∨ r.state = .suspect) → Answers (.lock tool) s .inUse)
      ∧ (r.state = .broken → Answers (.lock tool) s .badState))
  ∧ (∀ (tool : Half) (s : State), Ready s (.unlock tool) →
      (∀ c, FirstFailing [(tool = 0 ∨ tool = 0xFFFF, .badArg), (s.find tool.toNat = none, .unknownTool),
                          (∃ r, s.find tool.toNat = some r ∧ r.state ≠ .held, .badState)] c → Answers (.unlock tool) s c)
      ∧ (∀ r, tool ≠ 0 → tool ≠ 0xFFFF → s.find tool.toNat = some r → r.state = .held → HasEnd r →
          CompletesAs (.unlock tool) s (s.putRecord { r with state := .spent }) done)
      ∧ (∀ r, tool ≠ 0 → tool ≠ 0xFFFF → s.find tool.toNat = some r → r.state = .held → ¬ HasEnd r →
          CompletesAs (.unlock tool) s (inform (s.putRecord { r with state := .available }) tool.toNat) done))

/-- Every step keeps the table in order and every record within the ranges of R2 and the rules of R3 to R5, R7 and R9; the
range of the wear carry (R6) and the warned flag of a record without a group (R8) stand in the statement that every step
keeps the part consistent. -/
def Obligations.EveryStepKeepsTheTableSound : Prop :=
  ∀ s t : State, TableSound s → step s = .next t → TableSound t

/-! ### Groups and selection -/

/-- DEFINE makes a group with its parameters clamped, or undefines one; a group in use keeps its kind, the command being
refused IN_USE. -/
def Obligations.DefineMakesTheGroup : Prop :=
  ∀ (a : DefineArgs) (s : State) (g : GroupNo) (pol : Policy), Ready s (.define a) → a.group.toNat = g.val →
    (a.policy = 0 ∧ pol = .priority ∨ a.policy = 1 ∧ pol = .rotate) →
    (a.kind = 0 → s.groups[g] = none → CompletesAs (.define a) s s done)
    ∧ (∀ grp, a.kind = 0 → s.groups[g] = some grp → ¬ InUse s g → CompletesAs (.define a) s (s.setGroup g none) done)
    ∧ (∀ k, (a.kind = 1 ∧ k = .wheel ∨ a.kind = 2 ∧ k = .dresser) → (∀ grp, s.groups[g] = some grp → grp.kind ≠ k) →
        ¬ InUse s g →
        CompletesAs (.define a) s
          (s.setGroup g (some { kind := k, params := clamped a pol, members := [], cursor := none, queue := [] })) done)
    ∧ (a.kind.toNat ≤ 2 → a.kind.toNat ≠ kindCode (s.groups[g].map (·.kind)) → InUse s g → Answers (.define a) s .inUse)

/-- DEFINE of a group of its own kind rewrites every parameter, and each new value changes what R58 gives. -/
def Obligations.RedefineRewritesTheGroup : Prop :=
  ∀ (a : DefineArgs) (s : State) (g : GroupNo) (grp : Group) (pol : Policy), Ready s (.define a) →
    a.group.toNat = g.val → (a.policy = 0 ∧ pol = .priority ∨ a.policy = 1 ∧ pol = .rotate) →
    s.groups[g] = some grp → (a.kind = 1 ∧ grp.kind = .wheel ∨ a.kind = 2 ∧ grp.kind = .dresser) →
    ∃ t, exec (.define a) s = .next t ∧ Stored t done ∧ Background s t ∧ t.seats = s.seats ∧ OtherGroupsKept s t g
      ∧ t.groups[g] = some { grp with
          params := clamped a pol, cursor := if pol = grp.params.policy then grp.cursor else none }
      ∧ (∀ n, t.find n = (s.find n).map fun r =>
          if r.group = some g then
            { r with
              wearCarry := if (clamped a pol).nominalLoad = grp.params.nominalLoad then r.wearCarry
                else min r.wearCarry ((clamped a pol).nominalLoad - 1)
              warned := if (clamped a pol).warnMargin = grp.params.warnMargin then r.warned
                else computedWarning r (some (clamped a pol).warnMargin) }
          else r)
      ∧ (∀ q : SeatNo, (t.notices.seats[q].warn = true ↔ s.notices.seats[q].warn = true
          ∨ ((clamped a pol).warnMargin ≠ grp.params.warnMargin ∧ ∃ r ∈ s.table, r.group = some g ∧ r.seat = some q
            ∧ (r.state = .active ∨ r.state = .suspect) ∧ r.warned = false
            ∧ computedWarning r (some (clamped a pol).warnMargin) = true))
          ∧ t.notices.seats[q] = { s.notices.seats[q] with warn := t.notices.seats[q].warn })
      ∧ (∀ w : WheelNo, s.seats[seatOfWheel w].group ≠ some g → t.wheels[w] = s.wheels[w])
      ∧ (∀ w : WheelNo, s.seats[seatOfWheel w].group = some g → t.wheels[w] = { s.wheels[w] with
          loss := if (clamped a pol).lossFloor = 0 then none else s.wheels[w].loss
          overload := if (clamped a pol).overloadCeiling = 0 then none else s.wheels[w].overload
          contact := if (clamped a pol).contactLevel = 0 then none else s.wheels[w].contact })

/-- The checks of DEFINE and LINK, in their order. -/
def Obligations.DefineAndLinkChecks : Prop :=
  (∀ (a : DefineArgs) (s : State) (c : ReplyCode), Ready s (.define a) →
    FirstFailing [(a.group.toNat > 31, .badArg),
                  (a.kind.toNat > 2 ∨ a.policy.toNat > 1, .badArg),
                  (∃ g : GroupNo, a.group.toNat = g.val ∧ a.kind.toNat ≠ kindCode (s.groups[g].map (·.kind)) ∧ InUse s g,
                    .inUse)] c →
    Answers (.define a) s c)
  ∧ (∀ (group : Byte) (tool : Half) (index : Byte) (s : State) (c : ReplyCode), Ready s (.link group tool index) →
    FirstFailing [(group.toNat > 31 ∨ tool = 0 ∨ tool = 0xFFFF, .badArg),
                  (∃ g : GroupNo, group.toNat = g.val ∧ s.groups[g] = none, .noGroup),
                  (s.find tool.toNat = none, .unknownTool),
                  (∃ r, s.find tool.toNat = some r ∧ r.group ≠ none, .duplicate),
                  (∃ (g : GroupNo) (grp : Group) (r : ToolRecord), group.toNat = g.val ∧ s.groups[g] = some grp
                    ∧ s.find tool.toNat = some r ∧ r.kind ≠ grp.kind, .wrongKind),
                  (∃ (g : GroupNo) (grp : Group), group.toNat = g.val ∧ s.groups[g] = some grp ∧ grp.members.length ≥ 12,
                    .listFull),
                  (∃ r, s.find tool.toNat = some r ∧ r.state = .broken, .badState)] c →
    Answers (.link group tool index) s c)

/-- LINK inserts the tool in the member list, adjusts the cursor, clamps the carry and recomputes the warned flag; a
record that becomes eligible is offered to the seats that wait. -/
def Obligations.LinkInsertsTheMember : Prop :=
  ∀ (group : Byte) (tool : Half) (index : Byte) (s : State) (g : GroupNo) (grp : Group) (r r' : ToolRecord) (p : Nat),
    Ready s (.link group tool index) → group.toNat = g.val → tool ≠ 0 → tool ≠ 0xFFFF → s.groups[g] = some grp →
    s.find tool.toNat = some r → r.group = none → r.kind = grp.kind → grp.members.length < 12 → r.state ≠ .broken →
    p = (if index.toNat > grp.members.length then grp.members.length else index.toNat) →
    r' = { r with group := some g, wearCarry := min r.wearCarry (grp.params.nominalLoad - 1)
                  warned := computedWarning r (some grp.params.warnMargin) } →
    CompletesAs (.link group tool index) s
      (inform ((s.setGroup g (some { grp with
          members := grp.members.take p ++ tool.toNat :: grp.members.drop p
          cursor := match grp.cursor with
            | some c => some (if p ≤ c then c + 1 else c)
            | none => none })).putRecord r') tool.toNat) done

/-- Selection searches the list from the index after a ROTATE cursor, prefers members that are not warned, and takes the
first that fits. -/
def Obligations.SelectionPrefersUnwarned : Prop :=
  (∀ grp : Group,
    (∀ p ∈ searchOrder grp, grp.members[p.1]? = some p.2)
    ∧ ((grp.params.policy = .priority ∨ grp.cursor = none) →
        (searchOrder grp).map (·.1) = List.range grp.members.length)
    ∧ (∀ c, grp.params.policy = .rotate → grp.cursor = some c → c < grp.members.length →
        (searchOrder grp).map (·.1) = List.range' (c + 1) (grp.members.length - (c + 1)) ++ List.range (c + 1)))
  ∧ ∀ (s : State) (g : GroupNo) (grp : Group) (e : Option Nat),
    (choose s g grp e = none ↔ ∀ p ∈ searchOrder grp, ¬ Fits s g e p.2)
    ∧ ∀ i n, choose s g grp e = some (i, n) →
      Fits s g e n ∧ ∃ before after, searchOrder grp = before ++ (i, n) :: after
        ∧ ((s.warnedTool n = false ∧ ∀ p ∈ before, Fits s g e p.2 → s.warnedTool p.2 = true)
          ∨ (s.warnedTool n = true ∧ (∀ p ∈ searchOrder grp, Fits s g e p.2 → s.warnedTool p.2 = true)
              ∧ ∀ p ∈ before, ¬ Fits s g e p.2))

/-- What a selection that takes a member does, and what one that takes none does. -/
def Obligations.SelectionTakesOrQueues : Prop :=
  ∀ (s : State) (q : SeatNo) (g : GroupNo) (grp : Group) (e : Option Nat),
    s.seats[q].group = some g → s.groups[g] = some grp →
    (∀ i n, choose s g grp e = some (i, n) → TookMember s (select s q e) q g grp i n)
    ∧ (choose s g grp e = none → JoinedQueue s (select s q e) q g grp)

/-- Grants serve the wait queue from its head until it is empty or no member is eligible. -/
def Obligations.GrantsServeTheQueue : Prop :=
  ∀ (s : State) (g : GroupNo) (grp : Group), TableOrdered s → s.groups[g] = some grp →
    (∀ q ∈ grp.queue, s.seats[q].group = some g) →
    ∃ k grp', (grant s g).groups[g] = some grp' ∧ grp'.queue = grp.queue.drop k
      ∧ (grp'.queue = [] ∨ ∀ n ∈ grp'.members, (grant s g).eligible g n = false)
      ∧ (∀ q ∈ grp.queue.take k, (grant s g).seats[q].service = .changing ∧ (grant s g).notices.seats[q].change = true
          ∧ ∃ r ∈ (grant s g).table, r.seat = some q ∧ r.state = .chosen ∧ r.group = some g)
      ∧ (∀ q, q ∉ grp.queue.take k → (grant s g).seats[q] = s.seats[q])

/-- The arbiter is informed of a tool (by LINK, UNLOCK, EDIT, or a tool given back): with no seat waiting, or a tool that
is not eligible, nothing follows; the only eligible member goes to the seat at the head of the queue. -/
def Obligations.EligibleToolServesTheHead : Prop :=
  ∀ (u : State) (g : GroupNo) (grp : Group) (r : ToolRecord), u.find r.number = some r → r.group = some g →
    u.groups[g] = some grp →
    ((grp.queue = [] ∨ r.state ≠ .available ∨ HasEnd r) → inform u r.number = u)
    ∧ ∀ (q : SeatNo) (rest : List SeatNo), r.state = .available → ¬ HasEnd r → r.number ∈ grp.members →
      grp.queue = q :: rest → u.seats[q].group = some g →
      (∀ n ∈ grp.members, n ≠ r.number → u.eligible g n = false) →
      (inform u r.number).find r.number = some { r with state := .chosen, seat := some q }
      ∧ OthersKept u (inform u r.number) r.number
      ∧ (inform u r.number).seats = u.seats.set q { service := .changing, group := some g }
      ∧ (∃ c, (inform u r.number).groups = u.groups.set g (some { grp with queue := rest, cursor := c }))
      ∧ (inform u r.number).notices = (u.raise q .change).notices
      ∧ (inform u r.number).wheels = u.wheels

/-! ### Seats and tool changes -/

/-- BIND writes the group and runs selection for the seat. UNBIND by the state of the seat: nothing to do, out of the wait queue,
the tool given back, or refused IN_USE. -/
def Obligations.BindAndUnbind : Prop :=
  (∀ (seat group : Byte) (s : State) (q : SeatNo) (g : GroupNo) (grp : Group), Ready s (.bind seat group) →
      seat.toNat = q.val → group.toNat = g.val → s.seats[q].service = .unbound → s.groups[g] = some grp →
      (grp.kind = .wheel ↔ q.val % 4 < 2) →
      CompletesAs (.bind seat group) s (select (s.setSeat q { service := .unbound, group := some g }) q none) done)
  ∧ (∀ (seat : Byte) (s : State) (q : SeatNo), Ready s (.unbind seat) → seat.toNat = q.val →
      (s.seats[q].service = .unbound → CompletesAs (.unbind seat) s s done)
      ∧ (s.seats[q].service = .halted → Answers (.unbind seat) s .inUse)
      ∧ (InService s q → s.cutOpenAt q = true → Answers (.unbind seat) s .inUse)
      ∧ (∀ g grp, s.seats[q].service = .waiting → s.holder q = none → s.seats[q].group = some g → s.groups[g] = some grp →
          CompletesAs (.unbind seat) s
            (((leaveService s q).setGroup g (some { grp with queue := grp.queue.filter (· != q) })).setSeat q
              { service := .unbound, group := none }) done)
      ∧ (∀ g grp r, (InService s q ∧ s.cutOpenAt q = false ∧ r.state = .active
            ∨ s.seats[q].service = .changing ∧ s.cutOpenAt q = false ∧ r.state = .chosen) →
          s.holder q = some r → s.seats[q].group = some g → s.groups[g] = some grp → q ∉ grp.queue →
          CompletesAs (.unbind seat) s
            (inform (((leaveService s q).setSeat q { service := .unbound, group := none }).putRecord
              { r with state := if HasEnd r then .spent else .available, seat := none }) r.number) done))

/-- The checks of BIND, MOUNT and SWAP, in their order. -/
def Obligations.SeatCommandChecks : Prop :=
  (∀ (seat group : Byte) (s : State) (c : ReplyCode), Ready s (.bind seat group) →
    FirstFailing [(seat.toNat > 15 ∨ group.toNat > 31, .badArg),
                  (∃ q : SeatNo, seat.toNat = q.val ∧ s.seats[q].service ≠ .unbound, .badState),
                  (∃ g : GroupNo, group.toNat = g.val ∧ s.groups[g] = none, .noGroup),
                  (∃ (g : GroupNo) (grp : Group), group.toNat = g.val ∧ s.groups[g] = some grp
                    ∧ ¬ (grp.kind = .wheel ↔ seat.toNat % 4 < 2), .wrongKind)] c →
    Answers (.bind seat group) s c)
  ∧ (∀ (seat : Byte) (tool : Half) (s : State) (c : ReplyCode), Ready s (.mount seat tool) →
    FirstFailing [(seat.toNat > 15 ∨ tool = 0 ∨ tool = 0xFFFF, .badArg),
                  (∃ q : SeatNo, seat.toNat = q.val ∧ s.seats[q].service ≠ .changing, .badState),
                  (s.find tool.toNat = none, .unknownTool),
                  (∃ (q : SeatNo) (r : ToolRecord), seat.toNat = q.val ∧ s.find tool.toNat = some r
                    ∧ ¬ (r.state = .chosen ∧ r.seat = some q)
                    ∧ ¬ (r.state = .available ∧ r.group ≠ none ∧ r.group = s.seats[q].group ∧ ¬ HasEnd r), .notEligible)] c →
    Answers (.mount seat tool) s c)
  ∧ (∀ (seat : Byte) (s : State) (c : ReplyCode), Ready s (.swap seat) →
    FirstFailing [(seat.toNat > 15, .badArg),
                  (∃ q : SeatNo, seat.toNat = q.val ∧ ¬ InService s q, .badState),
                  (∃ (q : SeatNo) (w : WheelNo), seat.toNat = q.val ∧ q = seatOfWheel w ∧ CutOpen s w, .inUse),
                  (∃ (q : SeatNo), seat.toNat = q.val ∧ ∀ g grp, s.seats[q].group = some g → s.groups[g] = some grp →
                    ∀ n ∈ grp.members, s.eligible g n = false, .notEligible)] c →
    Answers (.swap seat) s c)

/-- What leaving service does: at a wheel seat an open cut is closed and charged, the phase goes to IDLE, cut-seen is cleared, a
probe check ends ABORTED and the supervision timers stop; a dresser seat has nothing to leave. A change then takes the
ACTIVE record to SPENT, off the seat, and runs selection. That the cut of a SUSPECT record, at a HALTED seat, is charged at
the nominal load as it stands, where R141 gives a redefined one from the seat's release, is the model's choice (log entry
25). -/
def Obligations.LeavingServiceAndChanging : Prop :=
  (∀ (s : State) (q : SeatNo), q.val % 4 ≥ 2 → leaveService s q = s)
  ∧ (∀ (s : State) (w : WheelNo), ¬ CutOpen s w →
      leaveService s (seatOfWheel w) = (raiseIf s (s.wheels[w].check ≠ none) (seatOfWheel w) .check).setWheel w
        (rested s.wheels[w]))
  ∧ (∀ (s : State) (w : WheelNo) (r r' : ToolRecord) (g : GroupNo) (grp : Group), CutOpen s w →
      s.holder (seatOfWheel w) = some r → (r.state = .active ∨ r.state = .suspect) →
      s.seats[seatOfWheel w].group = some g → s.groups[g] = some grp →
      r' = chargedTo (s.marginOf r) (worn s.wheels[w].accumulator grp.params.nominalLoad r) →
      leaveService s (seatOfWheel w) =
        ((raiseIf (raiseIf (raiseIf s (NewEnd r r' ∧ r.state = .active) (seatOfWheel w) .spent)
            (r.warned = false ∧ r'.warned = true) (seatOfWheel w) .warn)
            (s.wheels[w].check ≠ none) (seatOfWheel w) .check).putRecord r').setWheel w
          { rested s.wheels[w] with accumulator := 0, cutTimer := none })
  ∧ (∀ (s : State) (q : SeatNo) (r : ToolRecord), (leaveService s q).holder q = some r → r.state = .active →
      beginChange s q = select ((leaveService s q).putRecord { r with state := .spent, seat := none }) q none)

/-- MOUNT of the chosen record takes it to ACTIVE and the seat to RUNNING, in service from rest. -/
def Obligations.MountPutsTheToolInService : Prop :=
  ∀ (seat : Byte) (tool : Half) (s : State) (q : SeatNo) (r : ToolRecord), Ready s (.mount seat tool) →
    seat.toNat = q.val → tool ≠ 0 → tool ≠ 0xFFFF → s.seats[q].service = .changing → s.find tool.toNat = some r →
    r.state = .chosen → r.seat = some q →
    (q.val % 4 ≥ 2 →
      CompletesAs (.mount seat tool) s
        (raiseIf ((s.putRecord { r with state := .active }).setService q .running) (r.warned = true) q .warn) done)
    ∧ (∀ w, q = seatOfWheel w →
      CompletesAs (.mount seat tool) s
        (raiseIf (((s.putRecord { r with state := .active }).setService q .running).setWheel w (fresh s.wheels[w]))
          (r.warned = true) q .warn) done)

/-- MOUNT of an eligible member other than the chosen record: the member is ACTIVE, the cursor moves to it, and the
displaced record is AVAILABLE again. -/
def Obligations.MountOfAnAlternative : Prop :=
  ∀ (seat : Byte) (tool : Half) (s : State) (q : SeatNo) (g : GroupNo) (grp : Group) (r d : ToolRecord),
    Ready s (.mount seat tool) → TableOrdered s → seat.toNat = q.val → tool ≠ 0 → tool ≠ 0xFFFF →
    s.seats[q].service = .changing → s.seats[q].group = some g → s.groups[g] = some grp → grp.queue = [] →
    s.find tool.toNat = some r → r.state = .available → r.group = some g → ¬ HasEnd r →
    s.holder q = some d → d.state = .chosen → d.group = some g → ¬ HasEnd d →
    ∃ t, exec (.mount seat tool) s = .next t ∧ Stored t done ∧ Background s t
      ∧ t.find r.number = some { r with state := .active, seat := some q }
      ∧ t.find d.number = some { d with state := .available, seat := none }
      ∧ (∀ n, n ≠ r.number → n ≠ d.number → t.find n = s.find n)
      ∧ t.seats = s.seats.set q { service := .running, group := some g }
      ∧ t.groups = s.groups.set g (some (if grp.params.policy = .rotate then
          { grp with cursor := some (grp.members.idxOf r.number) } else grp))
      ∧ (∀ w, q = seatOfWheel w → t.wheels = s.wheels.set w (fresh s.wheels[w]))
      ∧ (q.val % 4 ≥ 2 → t.wheels = s.wheels)
      ∧ t.notices = (raiseIf s (r.warned = true) q .warn).notices

/-- SWAP gives back the tool of the seat and takes a sister that is another tool. -/
def Obligations.SwapSelectsASister : Prop :=
  ∀ (seat : Byte) (s : State) (q : SeatNo) (g : GroupNo) (grp : Group) (r : ToolRecord) (m : Nat),
    Ready s (.swap seat) → TableOrdered s → seat.toNat = q.val → InService s q → s.cutOpenAt q = false →
    s.seats[q].group = some g → s.groups[g] = some grp → grp.queue = [] → s.holder q = some r → r.state = .active →
    r.group = some g → m ∈ grp.members → s.eligible g m = true →
    ∃ u i n, u = (leaveService s q).putRecord
          { r with state := if HasEnd r then .spent else .available, seat := none }
      ∧ choose u g grp (some r.number) = some (i, n) ∧ n ≠ r.number
      ∧ CompletesAs (.swap seat) s (select u q (some r.number)) done

/-! ### Station inputs and the part cycle -/

/-- A rising edge of CUT begins a cut at a RUNNING or DUE seat, and is FOREIGN at any other. By the model's choices the row
acts whether or not a tick has marked the edge, and takes the mark (log entry 4), and at a seat in service whose cut is
open, where the data sheet knows no rising edge, it does nothing else (log entry 14); the seat keeps the blanking time that
the cut begins with (log entry 23). -/
def Obligations.CutRisingEdgeBeginsACut : Prop :=
  ∀ (w : WheelNo) (s : State), s.nRST = true →
    (∀ g grp, InService s (seatOfWheel w) → ¬ CutOpen s w → s.seats[seatOfWheel w].group = some g →
      s.groups[g] = some grp →
      exec (.cutRisingEdge w) s = .next (commit s
        (((raiseIf (takeCutMark s w .rising) (s.wheels[w].check ≠ none) (seatOfWheel w) .check).setStation
            (stationOfWheel w) { s.stations[stationOfWheel w] with partOpen := true }).setWheel w
          { s.wheels[w] with
            phase := if grp.params.engageDelay = 0 then .cut else .engage
            phaseTimer := if grp.params.engageDelay = 0 then none
              else some { count := 0, time := 10 * grp.params.engageDelay }
            cutBlanking := 10 * grp.params.blankingTime
            cutSeen := true, cutTimer := some { count := 0, fires := false }, contact := none, check := none
            lastResult := if s.wheels[w].check = none then s.wheels[w].lastResult else .aborted })))
    ∧ (¬ InService s (seatOfWheel w) →
      exec (.cutRisingEdge w) s = .next (commit s ((takeCutMark s w .rising).raise (seatOfWheel w) .foreign)))
    ∧ (InService s (seatOfWheel w) → CutOpen s w →
      exec (.cutRisingEdge w) s = .next (commit s (takeCutMark s w .rising)))

/-- A falling edge of CUT closes an open cut and charges it; a new end takes a RUNNING seat to DUE or into a change. By the
model's choice the row acts whether or not a tick has marked the edge, and takes the mark (log entry 4). The blanking time is
the one that stands at the edge or the one that the cut began with; where DEFINE has made them differ, either may be taken
(log entry 23). A redefined nominal load counts at a HALTED seat too (log entry 25). -/
def Obligations.CutFallingEdgeClosesTheCut : Prop :=
  ∀ (w : WheelNo) (s : State) (g : GroupNo) (grp : Group) (r r' : ToolRecord) (q : SeatNo), s.nRST = true →
    (¬ CutOpen s w → exec (.cutFallingEdge w) s = .next (commit s (takeCutMark s w .falling)))
    ∧ (CutOpen s w → q = seatOfWheel w → s.holder q = some r → (r.state = .active ∨ r.state = .suspect) →
      s.seats[q].group = some g → s.groups[g] = some grp →
      r' = chargedTo (s.marginOf r) (worn s.wheels[w].accumulator grp.params.nominalLoad r) →
      ∃ time u, (time = 10 * grp.params.blankingTime ∨ time = s.wheels[w].cutBlanking)
      ∧ u = { (((raiseIf (raiseIf (takeCutMark s w .falling) (NewEnd r r' ∧ r.state = .active) q .spent)
          (r.warned = false ∧ r'.warned = true) q .warn).putRecord r').setWheel w
          { s.wheels[w] with
            phase := if time = 0 then .idle else .settle
            phaseTimer := if time = 0 then none else some { count := 0, time := time }
            loss := none, overload := none, accumulator := 0, cutTimer := none }) with freeCount := s.freeCount + 1 }
      ∧ (¬ (NewEnd r r' ∧ r.state = .active ∧ s.seats[q].service = .running) →
        exec (.cutFallingEdge w) s = .next (commit s u))
      ∧ (NewEnd r r' → r.state = .active → s.seats[q].service = .running →
        s.stations[stationOf q].partOpen = true → exec (.cutFallingEdge w) s = .next (commit s (u.setService q .due)))
      ∧ (NewEnd r r' → r.state = .active → s.seats[q].service = .running →
        s.stations[stationOf q].partOpen = false → exec (.cutFallingEdge w) s = .next (commit s (beginChange u q))))

/-- A part end with part-open clear has no effect; with part-open set it counts the part on each record, recomputes its
ended set and its warned flag, raises SPENT and WARN as they follow, clears the flags and begins the changes that are due,
where a cut still open is charged to the outgoing record. By the model's choice the row acts whether or not a tick has
marked the edge, and takes the mark (log entry 4). -/
def Obligations.PartEndCountsAndChanges : Prop :=
  ∀ (st : StationNo) (s : State), s.nRST = true →
    (s.stations[st].partOpen = false → exec (.partEnd st) s = .next (commit s (takePendMark s st)))
    ∧ (TableOrdered s → s.stations[st].partOpen = true → ∃ t, exec (.partEnd st) s = .next t
      ∧ t.stations[st].partOpen = false
      ∧ (∀ w, stationOfWheel w = st → t.wheels[w].cutSeen = false)
      ∧ (∀ w, stationOfWheel w ≠ st → t.wheels[w] = s.wheels[w])
      ∧ (∀ n r, s.find n = some r → ∃ r', t.find n = some r'
          ∧ ((∃ q, CountsAt s st q r) → r'.partsUsed = min 16777215 (r.partsUsed + 1))
          ∧ ((¬ ∃ q, CountsAt s st q r) → r'.partsUsed = r.partsUsed))
      ∧ (∀ q r, s.holder q = some r → r.state = .active → EndsAt s st q r →
          (∀ g grp, s.seats[q].group = some g → s.groups[g] = some grp →
            t.seats[q].service = .changing ∨ t.seats[q].service = .waiting)
          ∧ ∃ r', t.find r.number = some r' ∧ r'.state = .spent ∧ r'.seat = none)
      ∧ (∀ q, (¬ AtStation q st ∨ s.seats[q].service ≠ .due
            ∧ ∀ r, s.holder q = some r → r.state = .active → ¬ EndsAt s st q r) → t.seats[q] = s.seats[q])
      ∧ t.scan = s.scan ∧ t.link = s.link ∧ t.cutLines = s.cutLines
      ∧ (∀ v, v ≠ st → t.stations[v].partOpen = s.stations[v].partOpen)
      ∧ (Consistent s →
        (∀ q, s.holder q = none → t.notices.seats[q] = s.notices.seats[q])
        ∧ ∀ q r, s.holder q = some r →
          (¬ (r.state = .active ∧ EndsAt s st q r) →
            t.find r.number = some (countedAt s st q r)
            ∧ t.notices.seats[q] = (told s q r (countedAt s st q r)).notices.seats[q])
          ∧ ∀ g grp r', r.state = .active → EndsAt s st q r → s.seats[q].group = some g → s.groups[g] = some grp →
            r' = closedAt s q grp (countedAt s st q r) →
            t.find r.number = some { r' with state := .spent, seat := none }
            ∧ t.notices.seats[q] =
              (raiseIf (raiseIf (raiseIf (told (told s q r (countedAt s st q r)) q (countedAt s st q r) r')
                (∃ w, q = seatOfWheel w ∧ s.wheels[w].check ≠ none) q .check)
                (t.seats[q].service = .changing) q .change)
                (t.seats[q].service = .waiting) q .wait).notices.seats[q]))

/-- The end of the engage delay and of the blanking time move the cut phase, and the end of a stretch stops its timer. That a
row whose count has not run changes nothing is the model's reading (log entry 5). -/
def Obligations.PhaseAndStretchTimersEnd : Prop :=
  ∀ s : State, s.nRST = true → PinsDriven s →
    (∀ (w : WheelNo) (t : PhaseTimer), s.wheels[w].phase = .engage → s.wheels[w].phaseTimer = some t → t.count ≥ t.time →
      exec (.engageDelayEnd w) s = .next (s.setWheel w { s.wheels[w] with phase := .cut, phaseTimer := none }))
    ∧ (∀ (w : WheelNo), (s.wheels[w].phase ≠ .engage ∨ ∀ t, s.wheels[w].phaseTimer = some t → t.count < t.time) →
      exec (.engageDelayEnd w) s = .next s)
    ∧ (∀ (w : WheelNo) (t : PhaseTimer), s.wheels[w].phase = .settle → s.wheels[w].phaseTimer = some t → t.count ≥ t.time →
      exec (.blankingTimeEnd w) s = .next (s.setWheel w { s.wheels[w] with phase := .idle, phaseTimer := none }))
    ∧ (∀ (w : WheelNo), (s.wheels[w].phase ≠ .settle ∨ ∀ t, s.wheels[w].phaseTimer = some t → t.count < t.time) →
      exec (.blankingTimeEnd w) s = .next s)
    ∧ (∀ (st : StationNo) (t : StretchTimer), s.stations[st].stretch = some t → t.count ≥ t.time →
      exec (.stretchTimerEnd st) s = .next (commit s (s.setStation st { s.stations[st] with stretch := none })))
    ∧ (∀ (st : StationNo), (∀ t, s.stations[st].stretch = some t → t.count < t.time) →
      exec (.stretchTimerEnd st) s = .next s)

/-- A tick that finds every event of the tick before taken: the additions to the accumulators, every running count, and
the samples of the twelve inputs. A tick that finds one event standing takes it first, as its own row would (log entry 6). By
the model's choice a redefined nominal load counts at a HALTED seat too (log entry 25). -/
def Obligations.TickCountsAndSamples : Prop :=
  (∀ (x : Samples) (s u : State) (e : Due), s.nRST = true → dueEvents s = [e] → exec (rowOf e) s = .next u →
    dueEvents u = [] → exec (.tick x) s = exec (.tick x) u)
  ∧ ∀ (x : Samples) (s : State), s.nRST = true → dueEvents s = [] →
    ∃ t, exec (.tick x) s = .next t ∧ t.table = s.table ∧ t.groups = s.groups ∧ t.seats = s.seats ∧ t.scan = s.scan
      ∧ t.notices = s.notices ∧ (PinsDriven s → t.pins = s.pins) ∧ t.nRST = s.nRST ∧ t.pending = s.pending
      ∧ t.link = { s.link with millis := s.link.millis + 1, watchdog := s.link.watchdog.map (· + 1) }
      ∧ (∀ st : StationNo, t.stations[st].partOpen = s.stations[st].partOpen
          ∧ t.stations[st].stretch = s.stations[st].stretch.map fun k => { k with count := k.count + 1 })
      ∧ (∀ w g grp, s.seats[seatOfWheel w].group = some g → s.groups[g] = some grp →
          t.wheels[w] = { s.wheels[w] with
            accumulator := if s.wheels[w].phase = .cut then
                min 4294967295 (s.wheels[w].accumulator
                  + if s.scan.fault then grp.params.nominalLoad else s.scan.channels[channelOf w].average)
              else s.wheels[w].accumulator
            phaseTimer := s.wheels[w].phaseTimer.map fun k => { k with count := k.count + 1 }
            loss := s.wheels[w].loss.map (countedTo (filterTime grp.params))
            overload := s.wheels[w].overload.map (countedTo (filterTime grp.params))
            contact := s.wheels[w].contact.map (countedTo (filterTime grp.params))
            cutTimer := s.wheels[w].cutTimer.map fun k =>
              { count := min 6553500 (k.count + 1)
                fires := decide (InService s (seatOfWheel w) ∧ CutOpen s w ∧ grp.params.maxCutTime > 0
                  ∧ min 6553500 (k.count + 1) ≥ 100 * grp.params.maxCutTime) }
            check := s.wheels[w].check.map fun c => { c with count := c.count + 1 } })
      ∧ (∀ w : WheelNo, Sampled (some .falling) s.cutLines[w] t.cutLines[w] x.cut[w])
      ∧ (∀ st : StationNo, Sampled none s.pendLines[st] t.pendLines[st] x.pend[st])

/-! ### Load sensing -/

/-- READ LOAD reports the channel and clears its fresh flag; SET SENSE clamps the count and empties the block. -/
def Obligations.ReadLoadAndSetSense : Prop :=
  (∀ (channel count : Byte) (s : State), channel.toNat > 8 →
    (Ready s (.readLoad channel) → Answers (.readLoad channel) s .badArg)
    ∧ (Ready s (.setSense channel count) → Answers (.setSense channel count) s .badArg))
  ∧ ∀ (channel count : Byte) (c : ChannelNo) (s : State), channel.toNat = c.val →
    (Ready s (.readLoad channel) →
      CompletesAs (.readLoad channel) s (s.setChannel c { s.scan.channels[c] with fresh := false })
        { code := .done, data := [channel] ++ byte2 s.scan.channels[c].average
            ++ [if s.scan.channels[c].fresh then 1 else 0] ++ byte1 s.scan.channels[c].count })
    ∧ (Ready s (.setSense channel count) → ∃ n,
      CompletesAs (.setSense channel count) s
        (s.setChannel c { s.scan.channels[c] with count := n, sum := 0, held := 0 }) done
      ∧ (count = 0 → n = 1) ∧ (count.toNat > 128 → n = 128)
      ∧ (1 ≤ count.toNat → count.toNat ≤ 128 → n ∈ averagingCounts ∧ n ≤ count.toNat ∧ count.toNat < 2 * n))

/-- The end of a conversion: the code joins the block of the channel the pointer names, a full block publishes its mean,
and the pointer moves on. A conversion of a load channel that fills no block leaves the wheel seats and the notices too. -/
def Obligations.ConversionJoinsTheBlock : Prop :=
  ∀ (code : BitVec 10) (s : State) (c : ChannelNo), s.nRST = true → s.scan.pointer = c →
    ∃ t, exec (.conversionEnd code) s = .next t ∧ t.scan.pointer.val = (c.val + 1) % 9
      ∧ (∀ d : ChannelNo, d ≠ c → t.scan.channels[d] = s.scan.channels[d])
      ∧ (s.scan.channels[c].held + 1 < s.scan.channels[c].count →
          t.scan.channels[c] = { s.scan.channels[c] with
            sum := s.scan.channels[c].sum + code.toNat, held := s.scan.channels[c].held + 1 })
      ∧ (s.scan.channels[c].held + 1 ≥ s.scan.channels[c].count →
          t.scan.channels[c] = { s.scan.channels[c] with
            sum := 0, held := 0, fresh := true
            average := (s.scan.channels[c].sum + code.toNat) / s.scan.channels[c].count })
      ∧ t.groups = s.groups ∧ t.stations.map (·.partOpen) = s.stations.map (·.partOpen)
      ∧ t.cutLines = s.cutLines ∧ t.pendLines = s.pendLines ∧ t.link = s.link ∧ t.pending = s.pending ∧ t.nRST = s.nRST
      ∧ (c.val ≠ 8 → t.scan.run = s.scan.run ∧ t.scan.fault = s.scan.fault)
      ∧ (c.val = 8 ∨ s.scan.channels[c].held + 1 < s.scan.channels[c].count →
          t.table = s.table ∧ t.seats = s.seats)
      ∧ (c.val ≠ 8 → s.scan.channels[c].held + 1 < s.scan.channels[c].count →
          t.wheels = s.wheels ∧ t.notices = s.notices)

/-- The reference monitor: the third code in a row that speaks against the condition changes it. SENSE is raised at the entry
and at the exit; at the entry every filter timer is stopped and every probe check in flight ends ABORTED. -/
def Obligations.ReferenceMonitorAndSenseFault : Prop :=
  (∀ (code : BitVec 10) (s : State), s.nRST = true → s.scan.pointer = 8 →
      ∃ t, exec (.conversionEnd code) s = .next t
        ∧ (InBand code ↔ 488 ≤ code.toNat ∧ code.toNat ≤ 536)
        ∧ (s.scan.fault = false → ¬ InBand code → s.scan.run < 2 → t.scan.run = s.scan.run + 1 ∧ t.scan.fault = false)
        ∧ (s.scan.fault = false → InBand code → t.scan.run = 0 ∧ t.scan.fault = false)
        ∧ (s.scan.fault = false → ¬ InBand code → s.scan.run ≥ 2 → t.scan.run = 0 ∧ t.scan.fault = true)
        ∧ (s.scan.fault = true → InBand code → s.scan.run < 2 → t.scan.run = s.scan.run + 1 ∧ t.scan.fault = true)
        ∧ (s.scan.fault = true → ¬ InBand code → t.scan.run = 0 ∧ t.scan.fault = true)
        ∧ (s.scan.fault = true → InBand code → s.scan.run ≥ 2 → t.scan.run = 0 ∧ t.scan.fault = false))
  ∧ (∀ (code : BitVec 10) (s t : State), s.nRST = true → s.scan.pointer = 8 → exec (.conversionEnd code) s = .next t →
      (s.scan.fault = false → t.scan.fault = true →
        t.notices.device = { s.notices.device with sense := true }
        ∧ ∀ w : WheelNo, t.wheels[w] = { s.wheels[w] with
            loss := none, overload := none, contact := none, check := none
            lastResult := if s.wheels[w].check = none then s.wheels[w].lastResult else .aborted }
          ∧ t.notices.seats[seatOfWheel w] = { s.notices.seats[seatOfWheel w] with
              check := s.notices.seats[seatOfWheel w].check || s.wheels[w].check.isSome })
      ∧ (s.scan.fault = true → t.scan.fault = false →
        t.notices = { s.notices with device := { s.notices.device with sense := true } } ∧ t.wheels = s.wheels)
      ∧ (s.scan.fault = t.scan.fault → t.notices = s.notices ∧ t.wheels = s.wheels))

/-- Every step keeps the averaging counts, blocks, averages and the run count within their ranges. -/
def Obligations.EveryStepKeepsTheScanInRange : Prop :=
  ∀ s t : State, ScanBounded s → step s = .next t → ScanBounded t

/-! ### Breakage checks -/

/-- A published average starts, keeps or stops each filter timer of the channel's wheel seat, and is tested against the
window of a probe check in flight: inside it the check goes on; outside it the check ends LOW or HIGH and a suspicion makes
an ACTIVE record SUSPECT and its seat HALTED, stops the filter timers and touches no other record or seat. -/
def Obligations.PublishedAverageIsJudged : Prop :=
  ∀ (code : BitVec 10) (s : State) (w : WheelNo) (g : GroupNo) (grp : Group) (x : Nat), s.nRST = true →
    s.scan.pointer.val = w.val → s.scan.channels[channelOf w].held + 1 ≥ s.scan.channels[channelOf w].count →
    x = (s.scan.channels[channelOf w].sum + code.toNat) / s.scan.channels[channelOf w].count →
    s.seats[seatOfWheel w].group = some g → s.groups[g] = some grp →
    ∃ t, exec (.conversionEnd code) s = .next t
      ∧ (∀ v : WheelNo, v ≠ w → t.wheels[v] = s.wheels[v])
      ∧ (s.wheels[w].check = none → t.wheels[w] = supervised s w grp.params x ∧ t.table = s.table ∧ t.seats = s.seats ∧ t.notices = s.notices)
      ∧ (∀ c, s.wheels[w].check = some c → c.lo ≤ x → x ≤ c.hi →
          t.wheels[w] = { supervised s w grp.params x with check := some { c with tested := true } }
            ∧ t.table = s.table ∧ t.seats = s.seats ∧ t.notices = s.notices)
      ∧ (∀ c, s.wheels[w].check = some c → (x < c.lo ∨ x > c.hi) →
          t.notices.device = s.notices.device
          ∧ (∀ p : SeatNo, p ≠ seatOfWheel w → t.notices.seats[p] = s.notices.seats[p])
          ∧ (∀ r, s.holder (seatOfWheel w) = some r → r.state = .active → (s.find r.number).isSome = true →
            t.find r.number = some { r with state := .suspect, cause := some .probe } ∧ OthersKept s t r.number
            ∧ t.seats[seatOfWheel w] = { s.seats[seatOfWheel w] with service := .halted }
            ∧ OtherSeatsKept s t (seatOfWheel w)
            ∧ t.notices.seats[seatOfWheel w] =
              { s.notices.seats[seatOfWheel w] with check := true, breakage := true }
            ∧ t.wheels[w] = { s.wheels[w] with
                loss := none, overload := none, contact := none, check := none
                lastResult := if x < c.lo then .low else .high })
          ∧ ((∀ r, s.holder (seatOfWheel w) = some r → r.state ≠ .active) →
            t.table = s.table ∧ t.seats = s.seats
            ∧ t.notices.seats[seatOfWheel w] = { s.notices.seats[seatOfWheel w] with check := true }
            ∧ t.wheels[w] = { supervised s w grp.params x with
                check := none, lastResult := if x < c.lo then .low else .high }))

/-- A filter timer that fires, and the overtime condition, raise a suspicion: the record SUSPECT with the cause, the seat HALTED,
BREAK raised, the filter timers stopped and a probe check ABORTED. By the model's readings a firing stands as a mark from
its tick to its row (log entry 11), a timer that has not fired does nothing (log entry 5), and at a seat without an ACTIVE
record, where the suspicion has no effect, the firing is used up: the filter timer stops, the cut timer runs on (log entry
22). -/
def Obligations.FiringRaisesASuspicion : Prop :=
  (∀ (w : WheelNo) (s : State) (r : ToolRecord) (q : SeatNo), s.nRST = true → q = seatOfWheel w →
      s.holder q = some r → r.state = .active →
      (∀ k, Fired s w k →
        exec (.filterTimerFires w k) s = .next (commit s (suspected s w r (FilterKind.cause k) s.wheels[w].cutTimer)))
      ∧ (∀ c, s.wheels[w].cutTimer = some { count := c, fires := true } →
        exec (.overtime w) s = .next (commit s (suspected s w r .overtime (some { count := c, fires := false })))))
  ∧ (∀ (w : WheelNo) (s : State), s.nRST = true → PinsDriven s →
      (∀ k, ¬ Fired s w k → exec (.filterTimerFires w k) s = .next s)
      ∧ ((∀ c, s.wheels[w].cutTimer ≠ some { count := c, fires := true }) → exec (.overtime w) s = .next s)
      ∧ ((∀ r, s.holder (seatOfWheel w) = some r → r.state ≠ .active) →
        (∀ k, Fired s w k → exec (.filterTimerFires w k) s = .next (s.setWheel w (s.wheels[w].stopFilter k)))
        ∧ ∀ c, s.wheels[w].cutTimer = some { count := c, fires := true } →
          exec (.overtime w) s = .next
            (s.setWheel w { s.wheels[w] with cutTimer := some { count := c, fires := false } })))

/-- RELEASE takes the SUSPECT record back to ACTIVE and judges the seat by its ended set and the part-open flag; CONDEMN closes
an open cut, takes the record to BROKEN with its cause kept, and runs selection for the seat. That the cut CONDEMN closes is
charged, as leaving service charges it, at the nominal load as it stands is the model's choice (log entry 25). -/
def Obligations.ReleaseAndCondemn : Prop :=
  (∀ (seat : Byte) (s u : State) (q : SeatNo) (w : WheelNo) (r : ToolRecord), Ready s (.release seat) →
      seat.toNat = q.val → q = seatOfWheel w → s.seats[q].service = .halted → s.holder q = some r → r.state = .suspect →
      u = s.putRecord { r with state := .active, cause := none } →
      (¬ HasEnd r → CompletesAs (.release seat) s
          ((u.setService q .running).setWheel w { s.wheels[w] with loss := none, overload := none, contact := none }) done)
      ∧ (HasEnd r → s.stations[stationOf q].partOpen = true → CompletesAs (.release seat) s
          ((u.setService q .due).setWheel w { s.wheels[w] with loss := none, overload := none, contact := none }) done)
      ∧ (HasEnd r → s.stations[stationOf q].partOpen = false → CompletesAs (.release seat) s (beginChange u q) done))
  ∧ (∀ (seat : Byte) (s : State) (q : SeatNo) (r : ToolRecord), Ready s (.condemn seat) → seat.toNat = q.val →
      s.seats[q].service = .halted → (leaveService s q).holder q = some r → r.state = .suspect →
      CompletesAs (.condemn seat) s
        (select ((leaveService s q).putRecord { r with state := .broken, seat := none }) q none) done)

/-- CHECK puts a probe check in flight, its window and duration clamped, and stops the contact timer; its duration runs out at
10 ticks a step, with PASS if an average was tested and NO_DATA if none was. That CHECK_DURATION_END before the count has run
changes nothing is the model's reading (log entry 5). -/
def Obligations.CheckBeginsAndEnds : Prop :=
  (∀ (seat : Byte) (lo hi : Half) (duration : Byte) (s : State) (q : SeatNo) (w : WheelNo),
      Ready s (.check seat lo hi duration) → seat.toNat = q.val → q = seatOfWheel w → InService s q →
      s.wheels[w].phase = .idle → s.scan.fault = false → s.wheels[w].check = none →
      min lo.toNat 1023 ≤ min hi.toNat 1023 →
      CompletesAs (.check seat lo hi duration) s
        (s.setWheel w { s.wheels[w] with
          contact := none
          check := some { lo := min lo.toNat 1023, hi := min hi.toNat 1023, count := 0, tested := false
                          steps := if duration = 0 then 1 else duration.toNat } }) done)
  ∧ (∀ (w : WheelNo) (s : State), s.nRST = true →
      (∀ c, s.wheels[w].check = some c → c.count ≥ 10 * c.steps →
        exec (.checkDurationEnd w) s = .next (commit s
          ((s.setWheel w { s.wheels[w] with
              check := none, lastResult := if c.tested then .pass else .noData }).raise (seatOfWheel w) .check)))
      ∧ (PinsDriven s → (∀ c, s.wheels[w].check = some c → c.count < 10 * c.steps) →
        exec (.checkDurationEnd w) s = .next s))

/-- The checks of CHECK and DRESS, in their order. -/
def Obligations.CheckAndDressChecks : Prop :=
  (∀ (seat : Byte) (lo hi : Half) (duration : Byte) (s : State) (c : ReplyCode), Ready s (.check seat lo hi duration) →
    FirstFailing [(seat.toNat > 15, .badArg), (seat.toNat % 4 ≥ 2, .badArg),
                  (min lo.toNat 1023 > min hi.toNat 1023, .badArg),
                  (∃ w : WheelNo, seat.toNat = (seatOfWheel w).val
                    ∧ (¬ InService s (seatOfWheel w) ∨ s.wheels[w].phase ≠ .idle ∨ s.scan.fault = true), .badState),
                  (∃ w : WheelNo, seat.toNat = (seatOfWheel w).val ∧ s.wheels[w].check ≠ none, .checkBusy)] c →
    Answers (.check seat lo hi duration) s c)
  ∧ (∀ (seat : Byte) (infeed : Half) (s : State) (c : ReplyCode), Ready s (.dress seat infeed) →
    FirstFailing [(seat.toNat > 15, .badArg), (seat.toNat % 4 ≥ 2, .wrongKind),
                  (∃ q : SeatNo, seat.toNat = q.val ∧ ¬ HoldsTool s q, .noTool)] c →
    Answers (.dress seat infeed) s c)

/-- DRESS charges the wheel and, if its seat holds a tool, the paired roll; a new end takes a RUNNING seat to DUE while a part is
open, and begins a change within the command while none is. -/
def Obligations.DressChargesWheelAndRoll : Prop :=
  ∀ (seat : Byte) (infeed : Half) (s u : State) (w : WheelNo) (r r' : ToolRecord),
    Ready s (.dress seat infeed) → TableOrdered s → seat.toNat = (seatOfWheel w).val → HoldsTool s (seatOfWheel w) →
    s.holder (seatOfWheel w) = some r → (r.state = .active ∨ r.state = .suspect) →
    r' = chargedTo (s.marginOf r) (dressed (within 1 2000 infeed.toNat) r) →
    u = afterDress s (seatOfWheel w) r r' →
    (¬ HoldsTool s (dresserOf w) → CompletesAs (.dress seat infeed) s u { code := .dresserSkipped, data := [] })
    ∧ (∀ d d' g grp, HoldsTool s (dresserOf w) → s.holder (dresserOf w) = some d →
      (d.state = .active ∨ d.state = .suspect) → s.seats[dresserOf w].group = some g → s.groups[g] = some grp →
      d' = chargedTo (s.marginOf d) (dressed grp.params.rollWear d) →
      CompletesAs (.dress seat infeed) s (afterDress u (dresserOf w) d d') done)

/-- The states of the seats, the records, the groups, the wait queues and the cuts agree with one another, and every step
keeps them so. -/
def Obligations.EveryStepKeepsThePartConsistent : Prop :=
  ∀ s t : State, Consistent s → step s = .next t → Consistent t

/-! ### Notices -/

/-- TAKE NOTICES answers a snapshot of every flag and leaves every flag clear. -/
def Obligations.TakeNoticesClearsTheSnapshot : Prop :=
  ∀ s : State, Ready s .takeNotices →
    ∃ t data, exec .takeNotices s = .next t ∧ Stored t { code := .done, data := data } ∧ data.length = 17
      ∧ (∀ q : SeatNo, t.notices.seats[q].any = false)
      ∧ t.notices.device = { reset := false, hold := false, sense := false } ∧ t.pins.nATTN = true
      ∧ t.notices.stretch = s.notices.stretch
      ∧ (∀ q : SeatNo, ∃ b, data[q.val]? = some b ∧ b.getLsbD 7 = false
          ∧ b.getLsbD 0 = s.notices.seats[q].warn ∧ b.getLsbD 1 = s.notices.seats[q].spent
          ∧ b.getLsbD 2 = s.notices.seats[q].change ∧ b.getLsbD 3 = s.notices.seats[q].wait
          ∧ (q.val % 4 < 2 → b.getLsbD 4 = s.notices.seats[q].breakage ∧ b.getLsbD 5 = s.notices.seats[q].check
              ∧ b.getLsbD 6 = s.notices.seats[q].foreign)
          ∧ (q.val % 4 ≥ 2 → b.getLsbD 4 = false ∧ b.getLsbD 5 = false ∧ b.getLsbD 6 = false))
      ∧ (∃ b, data[16]? = some b ∧ b.getLsbD 0 = s.notices.device.reset ∧ b.getLsbD 1 = s.notices.device.hold
          ∧ b.getLsbD 2 = s.notices.device.sense ∧ b.toNat < 8)
      ∧ t.table = s.table ∧ t.groups = s.groups ∧ t.seats = s.seats ∧ t.wheels = s.wheels ∧ t.stations = s.stations
      ∧ t.scan = s.scan ∧ t.link = { s.link with buffer := t.link.buffer }

/-- A notice flag is cleared by TAKE NOTICES and by the resets alone. -/
def Obligations.OnlyTakeNoticesAndResetsClearFlags : Prop :=
  ∀ (i : Instr) (s t : State), exec i s = .next t →
    i ≠ .takeNotices → i ≠ .restart → i ≠ .nrstLow → i ≠ .nrstHigh → (∀ n, i ≠ .powerOn n) → FlagsKept s t

/-! ### The command link -/

/-- The status byte shows its eight conditions, and the byte formed for a frame in progress is changed by no row but those
of frames and resets. -/
def Obligations.StatusByteShowsTheConditions : Prop :=
  (∀ s : State,
    ((statusByte s).getLsbD 7 = true ↔ (∃ q : SeatNo, s.notices.seats[q].any = true) ∨ s.notices.device.reset = true
        ∨ s.notices.device.hold = true ∨ s.notices.device.sense = true)
    ∧ ((statusByte s).getLsbD 6 = true ↔ ∃ r, s.link.buffer = .stored r)
    ∧ ((statusByte s).getLsbD 5 = true ↔ ∃ c, s.link.buffer = .pending c)
    ∧ ((statusByte s).getLsbD 4 = true ↔ s.link.linkErr = true)
    ∧ ((statusByte s).getLsbD 3 = true ↔ s.link.hold = true)
    ∧ ((statusByte s).getLsbD 2 = true ↔ ∃ q : SeatNo, s.seats[q].service = .halted)
    ∧ ((statusByte s).getLsbD 1 = true ↔ ∃ q : SeatNo, s.seats[q].service = .waiting)
    ∧ ((statusByte s).getLsbD 0 = true ↔ s.scan.fault = true))
  ∧ ∀ (i : Instr) (s t : State), exec i s = .next t →
      (∀ m a l, i ≠ .statusFrame m a l ∧ i ≠ .commandFrame m a l ∧ i ≠ .fetchFrame m a l) →
      (∀ m b, i ≠ .frameOfNoKind m b) → i ≠ .restart → i ≠ .nrstLow → i ≠ .nrstHigh → (∀ n, i ≠ .powerOn n) →
      t.link.frame = s.link.frame

/-- A STATUS frame of 16 clocks whose check byte matches is accepted and returns the status byte formed at the fall of
nSEL; any other addressed STATUS frame, and any addressed frame of no kind, is rejected; a frame addressed to another part,
one whose address was not taken, and one whose fall the part did not take are ignored. The moments of a frame are the
model's (log entry 3), and pins.sdo keeps what SDO carried (log entry 17). -/
def Obligations.StatusAndKindlessFrames : Prop :=
  (∀ (addr : BitVec 2) (tail : List Bool) (s : State), s.nRST = true → PinsDriven s →
      Begins (fun m => .statusFrame m addr tail) s
      ∧ exec (.statusFrame .thirdByte addr tail) s = .next s
      ∧ ((∀ f, ¬ Addressed s addr f) →
          exec (.statusFrame .rise addr tail) s = .next ((s.setLink (passed s.link)).setSdo none))
      ∧ ∀ f, Addressed s addr f →
        (∀ low b, tail = lowBits low ++ bitsOf b → (f.crcen = true → b = crc8 [headerByte addr false false low]) →
          exec (.statusFrame .rise addr tail) s = .next ((s.setLink (heard s.link)).setSdo (some (bitsOf f.status))))
        ∧ ((∀ low b, tail = lowBits low ++ bitsOf b → f.crcen = true ∧ b ≠ crc8 [headerByte addr false false low]) →
          exec (.statusFrame .rise addr tail) s =
            .next ((s.setLink (rejected s.link)).setSdo (sdoOver tail [f.status]))))
  ∧ (∀ (bits : NoKind) (s : State), s.nRST = true → PinsDriven s →
      Begins (fun m => .frameOfNoKind m bits) s
      ∧ exec (.frameOfNoKind .thirdByte bits) s = .next s
      ∧ ((bits = .noClock ∨ ∃ a, bits = .oneClock a) →
          exec (.frameOfNoKind .rise bits) s = .next ((s.setLink (passed s.link)).setSdo none))
      ∧ ∀ addr tail, (bits = .twoClocks addr ∧ tail = [] ∨ (∃ k, bits = .threeClocks addr k) ∧ tail = []
            ∨ bits = .kind11 addr tail) →
          ((∀ f, ¬ Addressed s addr f) →
            exec (.frameOfNoKind .rise bits) s = .next ((s.setLink (passed s.link)).setSdo none))
          ∧ ∀ f, Addressed s addr f → exec (.frameOfNoKind .rise bits) s =
              .next ((s.setLink (rejected s.link)).setSdo (sdoOver tail [f.status])))

/-- A COMMAND frame is accepted when, at the rise of nSEL, no command is BUSY and its bytes are those of a command with,
under CRCEN, its check byte: the reply is discarded and the command is BUSY. Every other addressed COMMAND frame is
rejected. Both return the status byte formed at the fall. The moments of a frame are the model's (log entry 3), and
pins.sdo keeps what SDO carried (log entry 17). -/
def Obligations.CommandFrameIsTakenOrRejected : Prop :=
  ∀ (addr : BitVec 2) (tail : List Bool) (s : State), s.nRST = true → PinsDriven s →
    Begins (fun m => .commandFrame m addr tail) s
    ∧ exec (.commandFrame .thirdByte addr tail) s = .next s
    ∧ ((∀ f, ¬ Addressed s addr f) →
        exec (.commandFrame .rise addr tail) s = .next ((s.setLink (passed s.link)).setSdo none))
    ∧ ∀ f, Addressed s addr f →
      (∀ i, (∀ c, s.link.buffer ≠ .pending c) → Carries f.crcen addr tail i →
        exec (.commandFrame .rise addr tail) s =
          .next ((s.setLink { heard s.link with buffer := .pending i }).setSdo (sdoOver tail [f.status])))
      ∧ (((∃ c, s.link.buffer = .pending c) ∨ ∀ i, ¬ Carries f.crcen addr tail i) →
        exec (.commandFrame .rise addr tail) s =
          .next ((s.setLink (rejected s.link)).setSdo (sdoOver tail [f.status])))

/-- A FETCH returns the status byte formed at the fall of nSEL and the reply, or L = 0, as the buffer stands when the third
byte begins, or at the rise where nothing was taken after that. It is accepted if it has whole bytes, at least three, and
its check byte matches, and else rejected; a rejected FETCH whose check byte matches has returned as much of the reply as
was clocked, and one whose check byte does not match, or was not taken, zeros. The buffer is left as it is. The moments of
a frame are the model's (log entry 3), and pins.sdo keeps what SDO carried (log entry 17). -/
def Obligations.FetchReturnsTheReply : Prop :=
  ∀ (addr : BitVec 2) (tail : List Bool) (s : State), s.nRST = true → PinsDriven s →
    Begins (fun m => .fetchFrame m addr tail) s
    ∧ ((∀ f, ¬ Addressed s addr f) →
        exec (.fetchFrame .thirdByte addr tail) s = .next s
        ∧ exec (.fetchFrame .rise addr tail) s = .next ((s.setLink (passed s.link)).setSdo none))
    ∧ ∀ f, Addressed s addr f →
      (Matched f.crcen addr tail → f.reply = none → exec (.fetchFrame .thirdByte addr tail) s =
        .next (s.setLink { s.link with frame := some { f with reply := some (fetched f.crcen s.link.buffer) } }))
      ∧ ((¬ Matched f.crcen addr tail ∨ f.reply ≠ none) → exec (.fetchFrame .thirdByte addr tail) s = .next s)
      ∧ (Matched f.crcen addr tail → (4 + tail.length) % 8 = 0 → 4 + tail.length ≥ 24 →
        exec (.fetchFrame .rise addr tail) s = .next ((s.setLink (heard s.link)).setSdo
          (sdoOver tail (f.status :: f.reply.getD (fetched f.crcen s.link.buffer)))))
      ∧ (Matched f.crcen addr tail → ((4 + tail.length) % 8 ≠ 0 ∨ 4 + tail.length < 24) →
        exec (.fetchFrame .rise addr tail) s = .next ((s.setLink (rejected s.link)).setSdo
          (sdoOver tail (f.status :: f.reply.getD (fetched f.crcen s.link.buffer)))))
      ∧ (¬ Matched f.crcen addr tail →
        exec (.fetchFrame .rise addr tail) s =
          .next ((s.setLink (rejected s.link)).setSdo (sdoOver tail [f.status])))

/-- The watchdog expires when its count has reached the period: the link enters HOLD, HOLD is raised, every permit is low
and every lamp lit. That WATCHDOG_EXPIRY before the count has run changes nothing is the model's reading (log entry 5). -/
def Obligations.WatchdogExpiryEntersHold : Prop :=
  ∀ (s : State), s.nRST = true →
    (∀ c n, s.link.watchdog = some c → periodTicks s.link.period = some n → c ≥ n →
      ∃ t, exec .watchdogExpiry s = .next t ∧ t.link = { s.link with hold := true, watchdog := none }
        ∧ t.notices = { s.notices with device := { s.notices.device with hold := true } }
        ∧ (∀ st : StationNo, t.pins.permit[st] = false ∧ t.pins.lamp[st] = true) ∧ t.pins.nATTN = false
        ∧ t.table = s.table ∧ t.groups = s.groups ∧ t.seats = s.seats ∧ t.wheels = s.wheels ∧ t.scan = s.scan
        ∧ t.cutLines = s.cutLines ∧ t.pendLines = s.pendLines
        ∧ ∀ st : StationNo, t.stations[st].partOpen = s.stations[st].partOpen)
    ∧ (PinsDriven s →
        (∀ c n, s.link.watchdog = some c → periodTicks s.link.period = some n → c < n) →
        exec .watchdogExpiry s = .next s)

/-- SET LINK writes the period and the stretch time and restarts the watchdog; RESUME leaves HOLD. -/
def Obligations.SetLinkAndResume : Prop :=
  (∀ (watchdog stretch : Byte) (s : State), Ready s (.setLink watchdog stretch) →
    ∃ period time,
      (watchdog = 0 → period = .off) ∧ (watchdog = 1 → period = .ms50) ∧ (watchdog = 2 → period = .ms200)
      ∧ (watchdog.toNat ≥ 3 → period = .ms1000)
      ∧ (stretch = 0 → time = .ms500) ∧ (stretch = 1 → time = .ms1000) ∧ (stretch = 2 → time = .ms2000)
      ∧ (stretch.toNat ≥ 3 → time = .ms4000)
      ∧ CompletesAs (.setLink watchdog stretch) s
        ((s.setLink { s.link with
            period := period
            watchdog := if s.link.hold then s.link.watchdog else if period = .off then none else some 0 }).setNotices
          { s.notices with stretch := time }) done)
  ∧ (∀ s : State, Ready s .resume →
    (s.link.hold = false → CompletesAs .resume s s done)
    ∧ (s.link.hold = true → CompletesAs .resume s
        (s.setLink { s.link with hold := false, watchdog := if s.link.period = .off then none else some 0 }) done))
end

