-- ==== Sys2Proof/Laws/State.lean ====
section
/-! SUPPORT. The fields of the state after each named write: one lemma per field per write. -/

namespace Sys2Proof.Laws

open Sys2Proof.Machine

/-- Two states with the same fields are the same state. -/
theorem state_ext {s t : State} (table : s.table = t.table) (groups : s.groups = t.groups) (seats : s.seats = t.seats)
    (wheels : s.wheels = t.wheels) (stations : s.stations = t.stations) (cutLines : s.cutLines = t.cutLines)
    (pendLines : s.pendLines = t.pendLines) (scan : s.scan = t.scan) (notices : s.notices = t.notices)
    (link : s.link = t.link) (pins : s.pins = t.pins) (nRST : s.nRST = t.nRST) (freeCount : s.freeCount = t.freeCount)
    (pending : s.pending = t.pending) : s = t := by
  cases s
  cases t
  simp_all

variable (s : State)

@[simp] theorem putRecord_table (r : ToolRecord) : (s.putRecord r).table = s.table.map fun x => if x.number = r.number then r else x := rfl
@[simp] theorem putRecord_groups (r : ToolRecord) : (s.putRecord r).groups = s.groups := rfl
@[simp] theorem putRecord_seats (r : ToolRecord) : (s.putRecord r).seats = s.seats := rfl
@[simp] theorem putRecord_wheels (r : ToolRecord) : (s.putRecord r).wheels = s.wheels := rfl
@[simp] theorem putRecord_stations (r : ToolRecord) : (s.putRecord r).stations = s.stations := rfl
@[simp] theorem putRecord_cutLines (r : ToolRecord) : (s.putRecord r).cutLines = s.cutLines := rfl
@[simp] theorem putRecord_pendLines (r : ToolRecord) : (s.putRecord r).pendLines = s.pendLines := rfl
@[simp] theorem putRecord_scan (r : ToolRecord) : (s.putRecord r).scan = s.scan := rfl
@[simp] theorem putRecord_notices (r : ToolRecord) : (s.putRecord r).notices = s.notices := rfl
@[simp] theorem putRecord_link (r : ToolRecord) : (s.putRecord r).link = s.link := rfl
@[simp] theorem putRecord_pins (r : ToolRecord) : (s.putRecord r).pins = s.pins := rfl
@[simp] theorem putRecord_nRST (r : ToolRecord) : (s.putRecord r).nRST = s.nRST := rfl
@[simp] theorem putRecord_freeCount (r : ToolRecord) : (s.putRecord r).freeCount = s.freeCount := rfl
@[simp] theorem putRecord_pending (r : ToolRecord) : (s.putRecord r).pending = s.pending := rfl

@[simp] theorem addRecord_table (r : ToolRecord) : (s.addRecord r).table = insertRecord r s.table := rfl
@[simp] theorem addRecord_groups (r : ToolRecord) : (s.addRecord r).groups = s.groups := rfl
@[simp] theorem addRecord_seats (r : ToolRecord) : (s.addRecord r).seats = s.seats := rfl
@[simp] theorem addRecord_wheels (r : ToolRecord) : (s.addRecord r).wheels = s.wheels := rfl
@[simp] theorem addRecord_stations (r : ToolRecord) : (s.addRecord r).stations = s.stations := rfl
@[simp] theorem addRecord_cutLines (r : ToolRecord) : (s.addRecord r).cutLines = s.cutLines := rfl
@[simp] theorem addRecord_pendLines (r : ToolRecord) : (s.addRecord r).pendLines = s.pendLines := rfl
@[simp] theorem addRecord_scan (r : ToolRecord) : (s.addRecord r).scan = s.scan := rfl
@[simp] theorem addRecord_notices (r : ToolRecord) : (s.addRecord r).notices = s.notices := rfl
@[simp] theorem addRecord_link (r : ToolRecord) : (s.addRecord r).link = s.link := rfl
@[simp] theorem addRecord_pins (r : ToolRecord) : (s.addRecord r).pins = s.pins := rfl
@[simp] theorem addRecord_nRST (r : ToolRecord) : (s.addRecord r).nRST = s.nRST := rfl
@[simp] theorem addRecord_freeCount (r : ToolRecord) : (s.addRecord r).freeCount = s.freeCount := rfl
@[simp] theorem addRecord_pending (r : ToolRecord) : (s.addRecord r).pending = s.pending := rfl

@[simp] theorem removeRecord_table (n : Nat) : (s.removeRecord n).table = s.table.filter fun r => r.number != n := rfl
@[simp] theorem removeRecord_groups (n : Nat) : (s.removeRecord n).groups = s.groups := rfl
@[simp] theorem removeRecord_seats (n : Nat) : (s.removeRecord n).seats = s.seats := rfl
@[simp] theorem removeRecord_wheels (n : Nat) : (s.removeRecord n).wheels = s.wheels := rfl
@[simp] theorem removeRecord_stations (n : Nat) : (s.removeRecord n).stations = s.stations := rfl
@[simp] theorem removeRecord_cutLines (n : Nat) : (s.removeRecord n).cutLines = s.cutLines := rfl
@[simp] theorem removeRecord_pendLines (n : Nat) : (s.removeRecord n).pendLines = s.pendLines := rfl
@[simp] theorem removeRecord_scan (n : Nat) : (s.removeRecord n).scan = s.scan := rfl
@[simp] theorem removeRecord_notices (n : Nat) : (s.removeRecord n).notices = s.notices := rfl
@[simp] theorem removeRecord_link (n : Nat) : (s.removeRecord n).link = s.link := rfl
@[simp] theorem removeRecord_pins (n : Nat) : (s.removeRecord n).pins = s.pins := rfl
@[simp] theorem removeRecord_nRST (n : Nat) : (s.removeRecord n).nRST = s.nRST := rfl
@[simp] theorem removeRecord_freeCount (n : Nat) : (s.removeRecord n).freeCount = s.freeCount := rfl
@[simp] theorem removeRecord_pending (n : Nat) : (s.removeRecord n).pending = s.pending := rfl

@[simp] theorem setGroup_table (g : GroupNo) (x : Option Group) : (s.setGroup g x).table = s.table := rfl
@[simp] theorem setGroup_groups (g : GroupNo) (x : Option Group) : (s.setGroup g x).groups = s.groups.set g x := rfl
@[simp] theorem setGroup_seats (g : GroupNo) (x : Option Group) : (s.setGroup g x).seats = s.seats := rfl
@[simp] theorem setGroup_wheels (g : GroupNo) (x : Option Group) : (s.setGroup g x).wheels = s.wheels := rfl
@[simp] theorem setGroup_stations (g : GroupNo) (x : Option Group) : (s.setGroup g x).stations = s.stations := rfl
@[simp] theorem setGroup_cutLines (g : GroupNo) (x : Option Group) : (s.setGroup g x).cutLines = s.cutLines := rfl
@[simp] theorem setGroup_pendLines (g : GroupNo) (x : Option Group) : (s.setGroup g x).pendLines = s.pendLines := rfl
@[simp] theorem setGroup_scan (g : GroupNo) (x : Option Group) : (s.setGroup g x).scan = s.scan := rfl
@[simp] theorem setGroup_notices (g : GroupNo) (x : Option Group) : (s.setGroup g x).notices = s.notices := rfl
@[simp] theorem setGroup_link (g : GroupNo) (x : Option Group) : (s.setGroup g x).link = s.link := rfl
@[simp] theorem setGroup_pins (g : GroupNo) (x : Option Group) : (s.setGroup g x).pins = s.pins := rfl
@[simp] theorem setGroup_nRST (g : GroupNo) (x : Option Group) : (s.setGroup g x).nRST = s.nRST := rfl
@[simp] theorem setGroup_freeCount (g : GroupNo) (x : Option Group) : (s.setGroup g x).freeCount = s.freeCount := rfl
@[simp] theorem setGroup_pending (g : GroupNo) (x : Option Group) : (s.setGroup g x).pending = s.pending := rfl

@[simp] theorem setSeat_table (q : SeatNo) (x : Seat) : (s.setSeat q x).table = s.table := rfl
@[simp] theorem setSeat_groups (q : SeatNo) (x : Seat) : (s.setSeat q x).groups = s.groups := rfl
@[simp] theorem setSeat_seats (q : SeatNo) (x : Seat) : (s.setSeat q x).seats = s.seats.set q x := rfl
@[simp] theorem setSeat_wheels (q : SeatNo) (x : Seat) : (s.setSeat q x).wheels = s.wheels := rfl
@[simp] theorem setSeat_stations (q : SeatNo) (x : Seat) : (s.setSeat q x).stations = s.stations := rfl
@[simp] theorem setSeat_cutLines (q : SeatNo) (x : Seat) : (s.setSeat q x).cutLines = s.cutLines := rfl
@[simp] theorem setSeat_pendLines (q : SeatNo) (x : Seat) : (s.setSeat q x).pendLines = s.pendLines := rfl
@[simp] theorem setSeat_scan (q : SeatNo) (x : Seat) : (s.setSeat q x).scan = s.scan := rfl
@[simp] theorem setSeat_notices (q : SeatNo) (x : Seat) : (s.setSeat q x).notices = s.notices := rfl
@[simp] theorem setSeat_link (q : SeatNo) (x : Seat) : (s.setSeat q x).link = s.link := rfl
@[simp] theorem setSeat_pins (q : SeatNo) (x : Seat) : (s.setSeat q x).pins = s.pins := rfl
@[simp] theorem setSeat_nRST (q : SeatNo) (x : Seat) : (s.setSeat q x).nRST = s.nRST := rfl
@[simp] theorem setSeat_freeCount (q : SeatNo) (x : Seat) : (s.setSeat q x).freeCount = s.freeCount := rfl
@[simp] theorem setSeat_pending (q : SeatNo) (x : Seat) : (s.setSeat q x).pending = s.pending := rfl

@[simp] theorem setService_table (q : SeatNo) (v : Service) : (s.setService q v).table = s.table := rfl
@[simp] theorem setService_groups (q : SeatNo) (v : Service) : (s.setService q v).groups = s.groups := rfl
@[simp] theorem setService_seats (q : SeatNo) (v : Service) : (s.setService q v).seats = s.seats.set q { s.seats[q] with service := v } := rfl
@[simp] theorem setService_wheels (q : SeatNo) (v : Service) : (s.setService q v).wheels = s.wheels := rfl
@[simp] theorem setService_stations (q : SeatNo) (v : Service) : (s.setService q v).stations = s.stations := rfl
@[simp] theorem setService_cutLines (q : SeatNo) (v : Service) : (s.setService q v).cutLines = s.cutLines := rfl
@[simp] theorem setService_pendLines (q : SeatNo) (v : Service) : (s.setService q v).pendLines = s.pendLines := rfl
@[simp] theorem setService_scan (q : SeatNo) (v : Service) : (s.setService q v).scan = s.scan := rfl
@[simp] theorem setService_notices (q : SeatNo) (v : Service) : (s.setService q v).notices = s.notices := rfl
@[simp] theorem setService_link (q : SeatNo) (v : Service) : (s.setService q v).link = s.link := rfl
@[simp] theorem setService_pins (q : SeatNo) (v : Service) : (s.setService q v).pins = s.pins := rfl
@[simp] theorem setService_nRST (q : SeatNo) (v : Service) : (s.setService q v).nRST = s.nRST := rfl
@[simp] theorem setService_freeCount (q : SeatNo) (v : Service) : (s.setService q v).freeCount = s.freeCount := rfl
@[simp] theorem setService_pending (q : SeatNo) (v : Service) : (s.setService q v).pending = s.pending := rfl

@[simp] theorem setWheel_table (w : WheelNo) (x : Wheel) : (s.setWheel w x).table = s.table := rfl
@[simp] theorem setWheel_groups (w : WheelNo) (x : Wheel) : (s.setWheel w x).groups = s.groups := rfl
@[simp] theorem setWheel_seats (w : WheelNo) (x : Wheel) : (s.setWheel w x).seats = s.seats := rfl
@[simp] theorem setWheel_wheels (w : WheelNo) (x : Wheel) : (s.setWheel w x).wheels = s.wheels.set w x := rfl
@[simp] theorem setWheel_stations (w : WheelNo) (x : Wheel) : (s.setWheel w x).stations = s.stations := rfl
@[simp] theorem setWheel_cutLines (w : WheelNo) (x : Wheel) : (s.setWheel w x).cutLines = s.cutLines := rfl
@[simp] theorem setWheel_pendLines (w : WheelNo) (x : Wheel) : (s.setWheel w x).pendLines = s.pendLines := rfl
@[simp] theorem setWheel_scan (w : WheelNo) (x : Wheel) : (s.setWheel w x).scan = s.scan := rfl
@[simp] theorem setWheel_notices (w : WheelNo) (x : Wheel) : (s.setWheel w x).notices = s.notices := rfl
@[simp] theorem setWheel_link (w : WheelNo) (x : Wheel) : (s.setWheel w x).link = s.link := rfl
@[simp] theorem setWheel_pins (w : WheelNo) (x : Wheel) : (s.setWheel w x).pins = s.pins := rfl
@[simp] theorem setWheel_nRST (w : WheelNo) (x : Wheel) : (s.setWheel w x).nRST = s.nRST := rfl
@[simp] theorem setWheel_freeCount (w : WheelNo) (x : Wheel) : (s.setWheel w x).freeCount = s.freeCount := rfl
@[simp] theorem setWheel_pending (w : WheelNo) (x : Wheel) : (s.setWheel w x).pending = s.pending := rfl

@[simp] theorem setStation_table (st : StationNo) (x : Station) : (s.setStation st x).table = s.table := rfl
@[simp] theorem setStation_groups (st : StationNo) (x : Station) : (s.setStation st x).groups = s.groups := rfl
@[simp] theorem setStation_seats (st : StationNo) (x : Station) : (s.setStation st x).seats = s.seats := rfl
@[simp] theorem setStation_wheels (st : StationNo) (x : Station) : (s.setStation st x).wheels = s.wheels := rfl
@[simp] theorem setStation_stations (st : StationNo) (x : Station) : (s.setStation st x).stations = s.stations.set st x := rfl
@[simp] theorem setStation_cutLines (st : StationNo) (x : Station) : (s.setStation st x).cutLines = s.cutLines := rfl
@[simp] theorem setStation_pendLines (st : StationNo) (x : Station) : (s.setStation st x).pendLines = s.pendLines := rfl
@[simp] theorem setStation_scan (st : StationNo) (x : Station) : (s.setStation st x).scan = s.scan := rfl
@[simp] theorem setStation_notices (st : StationNo) (x : Station) : (s.setStation st x).notices = s.notices := rfl
@[simp] theorem setStation_link (st : StationNo) (x : Station) : (s.setStation st x).link = s.link := rfl
@[simp] theorem setStation_pins (st : StationNo) (x : Station) : (s.setStation st x).pins = s.pins := rfl
@[simp] theorem setStation_nRST (st : StationNo) (x : Station) : (s.setStation st x).nRST = s.nRST := rfl
@[simp] theorem setStation_freeCount (st : StationNo) (x : Station) : (s.setStation st x).freeCount = s.freeCount := rfl
@[simp] theorem setStation_pending (st : StationNo) (x : Station) : (s.setStation st x).pending = s.pending := rfl

@[simp] theorem setScan_table (x : Scan) : (s.setScan x).table = s.table := rfl
@[simp] theorem setScan_groups (x : Scan) : (s.setScan x).groups = s.groups := rfl
@[simp] theorem setScan_seats (x : Scan) : (s.setScan x).seats = s.seats := rfl
@[simp] theorem setScan_wheels (x : Scan) : (s.setScan x).wheels = s.wheels := rfl
@[simp] theorem setScan_stations (x : Scan) : (s.setScan x).stations = s.stations := rfl
@[simp] theorem setScan_cutLines (x : Scan) : (s.setScan x).cutLines = s.cutLines := rfl
@[simp] theorem setScan_pendLines (x : Scan) : (s.setScan x).pendLines = s.pendLines := rfl
@[simp] theorem setScan_scan (x : Scan) : (s.setScan x).scan = x := rfl
@[simp] theorem setScan_notices (x : Scan) : (s.setScan x).notices = s.notices := rfl
@[simp] theorem setScan_link (x : Scan) : (s.setScan x).link = s.link := rfl
@[simp] theorem setScan_pins (x : Scan) : (s.setScan x).pins = s.pins := rfl
@[simp] theorem setScan_nRST (x : Scan) : (s.setScan x).nRST = s.nRST := rfl
@[simp] theorem setScan_freeCount (x : Scan) : (s.setScan x).freeCount = s.freeCount := rfl
@[simp] theorem setScan_pending (x : Scan) : (s.setScan x).pending = s.pending := rfl

@[simp] theorem setLink_table (x : Link) : (s.setLink x).table = s.table := rfl
@[simp] theorem setLink_groups (x : Link) : (s.setLink x).groups = s.groups := rfl
@[simp] theorem setLink_seats (x : Link) : (s.setLink x).seats = s.seats := rfl
@[simp] theorem setLink_wheels (x : Link) : (s.setLink x).wheels = s.wheels := rfl
@[simp] theorem setLink_stations (x : Link) : (s.setLink x).stations = s.stations := rfl
@[simp] theorem setLink_cutLines (x : Link) : (s.setLink x).cutLines = s.cutLines := rfl
@[simp] theorem setLink_pendLines (x : Link) : (s.setLink x).pendLines = s.pendLines := rfl
@[simp] theorem setLink_scan (x : Link) : (s.setLink x).scan = s.scan := rfl
@[simp] theorem setLink_notices (x : Link) : (s.setLink x).notices = s.notices := rfl
@[simp] theorem setLink_link (x : Link) : (s.setLink x).link = x := rfl
@[simp] theorem setLink_pins (x : Link) : (s.setLink x).pins = s.pins := rfl
@[simp] theorem setLink_nRST (x : Link) : (s.setLink x).nRST = s.nRST := rfl
@[simp] theorem setLink_freeCount (x : Link) : (s.setLink x).freeCount = s.freeCount := rfl
@[simp] theorem setLink_pending (x : Link) : (s.setLink x).pending = s.pending := rfl

@[simp] theorem setNotices_table (x : Notices) : (s.setNotices x).table = s.table := rfl
@[simp] theorem setNotices_groups (x : Notices) : (s.setNotices x).groups = s.groups := rfl
@[simp] theorem setNotices_seats (x : Notices) : (s.setNotices x).seats = s.seats := rfl
@[simp] theorem setNotices_wheels (x : Notices) : (s.setNotices x).wheels = s.wheels := rfl
@[simp] theorem setNotices_stations (x : Notices) : (s.setNotices x).stations = s.stations := rfl
@[simp] theorem setNotices_cutLines (x : Notices) : (s.setNotices x).cutLines = s.cutLines := rfl
@[simp] theorem setNotices_pendLines (x : Notices) : (s.setNotices x).pendLines = s.pendLines := rfl
@[simp] theorem setNotices_scan (x : Notices) : (s.setNotices x).scan = s.scan := rfl
@[simp] theorem setNotices_notices (x : Notices) : (s.setNotices x).notices = x := rfl
@[simp] theorem setNotices_link (x : Notices) : (s.setNotices x).link = s.link := rfl
@[simp] theorem setNotices_pins (x : Notices) : (s.setNotices x).pins = s.pins := rfl
@[simp] theorem setNotices_nRST (x : Notices) : (s.setNotices x).nRST = s.nRST := rfl
@[simp] theorem setNotices_freeCount (x : Notices) : (s.setNotices x).freeCount = s.freeCount := rfl
@[simp] theorem setNotices_pending (x : Notices) : (s.setNotices x).pending = s.pending := rfl

@[simp] theorem setPins_table (x : Pins) : (s.setPins x).table = s.table := rfl
@[simp] theorem setPins_groups (x : Pins) : (s.setPins x).groups = s.groups := rfl
@[simp] theorem setPins_seats (x : Pins) : (s.setPins x).seats = s.seats := rfl
@[simp] theorem setPins_wheels (x : Pins) : (s.setPins x).wheels = s.wheels := rfl
@[simp] theorem setPins_stations (x : Pins) : (s.setPins x).stations = s.stations := rfl
@[simp] theorem setPins_cutLines (x : Pins) : (s.setPins x).cutLines = s.cutLines := rfl
@[simp] theorem setPins_pendLines (x : Pins) : (s.setPins x).pendLines = s.pendLines := rfl
@[simp] theorem setPins_scan (x : Pins) : (s.setPins x).scan = s.scan := rfl
@[simp] theorem setPins_notices (x : Pins) : (s.setPins x).notices = s.notices := rfl
@[simp] theorem setPins_link (x : Pins) : (s.setPins x).link = s.link := rfl
@[simp] theorem setPins_pins (x : Pins) : (s.setPins x).pins = x := rfl
@[simp] theorem setPins_nRST (x : Pins) : (s.setPins x).nRST = s.nRST := rfl
@[simp] theorem setPins_freeCount (x : Pins) : (s.setPins x).freeCount = s.freeCount := rfl
@[simp] theorem setPins_pending (x : Pins) : (s.setPins x).pending = s.pending := rfl

@[simp] theorem raise_table (q : SeatNo) (n : SeatNotice) : (s.raise q n).table = s.table := rfl
@[simp] theorem raise_groups (q : SeatNo) (n : SeatNotice) : (s.raise q n).groups = s.groups := rfl
@[simp] theorem raise_seats (q : SeatNo) (n : SeatNotice) : (s.raise q n).seats = s.seats := rfl
@[simp] theorem raise_wheels (q : SeatNo) (n : SeatNotice) : (s.raise q n).wheels = s.wheels := rfl
@[simp] theorem raise_stations (q : SeatNo) (n : SeatNotice) : (s.raise q n).stations = s.stations := rfl
@[simp] theorem raise_cutLines (q : SeatNo) (n : SeatNotice) : (s.raise q n).cutLines = s.cutLines := rfl
@[simp] theorem raise_pendLines (q : SeatNo) (n : SeatNotice) : (s.raise q n).pendLines = s.pendLines := rfl
@[simp] theorem raise_scan (q : SeatNo) (n : SeatNotice) : (s.raise q n).scan = s.scan := rfl
@[simp] theorem raise_notices (q : SeatNo) (n : SeatNotice) : (s.raise q n).notices = { s.notices with seats := s.notices.seats.set q (s.notices.seats[q].raise n) } := rfl
@[simp] theorem raise_link (q : SeatNo) (n : SeatNotice) : (s.raise q n).link = s.link := rfl
@[simp] theorem raise_pins (q : SeatNo) (n : SeatNotice) : (s.raise q n).pins = s.pins := rfl
@[simp] theorem raise_nRST (q : SeatNo) (n : SeatNotice) : (s.raise q n).nRST = s.nRST := rfl
@[simp] theorem raise_freeCount (q : SeatNo) (n : SeatNotice) : (s.raise q n).freeCount = s.freeCount := rfl
@[simp] theorem raise_pending (q : SeatNo) (n : SeatNotice) : (s.raise q n).pending = s.pending := rfl

@[simp] theorem raiseSense_table : (s.raiseSense).table = s.table := rfl
@[simp] theorem raiseSense_groups : (s.raiseSense).groups = s.groups := rfl
@[simp] theorem raiseSense_seats : (s.raiseSense).seats = s.seats := rfl
@[simp] theorem raiseSense_wheels : (s.raiseSense).wheels = s.wheels := rfl
@[simp] theorem raiseSense_stations : (s.raiseSense).stations = s.stations := rfl
@[simp] theorem raiseSense_cutLines : (s.raiseSense).cutLines = s.cutLines := rfl
@[simp] theorem raiseSense_pendLines : (s.raiseSense).pendLines = s.pendLines := rfl
@[simp] theorem raiseSense_scan : (s.raiseSense).scan = s.scan := rfl
@[simp] theorem raiseSense_notices : (s.raiseSense).notices = { s.notices with device := { s.notices.device with sense := true } } := rfl
@[simp] theorem raiseSense_link : (s.raiseSense).link = s.link := rfl
@[simp] theorem raiseSense_pins : (s.raiseSense).pins = s.pins := rfl
@[simp] theorem raiseSense_nRST : (s.raiseSense).nRST = s.nRST := rfl
@[simp] theorem raiseSense_freeCount : (s.raiseSense).freeCount = s.freeCount := rfl
@[simp] theorem raiseSense_pending : (s.raiseSense).pending = s.pending := rfl

@[simp] theorem raiseHold_table : (s.raiseHold).table = s.table := rfl
@[simp] theorem raiseHold_groups : (s.raiseHold).groups = s.groups := rfl
@[simp] theorem raiseHold_seats : (s.raiseHold).seats = s.seats := rfl
@[simp] theorem raiseHold_wheels : (s.raiseHold).wheels = s.wheels := rfl
@[simp] theorem raiseHold_stations : (s.raiseHold).stations = s.stations := rfl
@[simp] theorem raiseHold_cutLines : (s.raiseHold).cutLines = s.cutLines := rfl
@[simp] theorem raiseHold_pendLines : (s.raiseHold).pendLines = s.pendLines := rfl
@[simp] theorem raiseHold_scan : (s.raiseHold).scan = s.scan := rfl
@[simp] theorem raiseHold_notices : (s.raiseHold).notices = { s.notices with device := { s.notices.device with hold := true } } := rfl
@[simp] theorem raiseHold_link : (s.raiseHold).link = s.link := rfl
@[simp] theorem raiseHold_pins : (s.raiseHold).pins = s.pins := rfl
@[simp] theorem raiseHold_nRST : (s.raiseHold).nRST = s.nRST := rfl
@[simp] theorem raiseHold_freeCount : (s.raiseHold).freeCount = s.freeCount := rfl
@[simp] theorem raiseHold_pending : (s.raiseHold).pending = s.pending := rfl

@[simp] theorem raiseAt_table (q : Option SeatNo) (n : SeatNotice) : (s.raiseAt q n).table = s.table := by cases q <;> rfl
@[simp] theorem raiseAt_groups (q : Option SeatNo) (n : SeatNotice) : (s.raiseAt q n).groups = s.groups := by cases q <;> rfl
@[simp] theorem raiseAt_seats (q : Option SeatNo) (n : SeatNotice) : (s.raiseAt q n).seats = s.seats := by cases q <;> rfl
@[simp] theorem raiseAt_wheels (q : Option SeatNo) (n : SeatNotice) : (s.raiseAt q n).wheels = s.wheels := by cases q <;> rfl
@[simp] theorem raiseAt_stations (q : Option SeatNo) (n : SeatNotice) : (s.raiseAt q n).stations = s.stations := by cases q <;> rfl
@[simp] theorem raiseAt_cutLines (q : Option SeatNo) (n : SeatNotice) : (s.raiseAt q n).cutLines = s.cutLines := by cases q <;> rfl
@[simp] theorem raiseAt_pendLines (q : Option SeatNo) (n : SeatNotice) : (s.raiseAt q n).pendLines = s.pendLines := by cases q <;> rfl
@[simp] theorem raiseAt_scan (q : Option SeatNo) (n : SeatNotice) : (s.raiseAt q n).scan = s.scan := by cases q <;> rfl
@[simp] theorem raiseAt_link (q : Option SeatNo) (n : SeatNotice) : (s.raiseAt q n).link = s.link := by cases q <;> rfl
@[simp] theorem raiseAt_pins (q : Option SeatNo) (n : SeatNotice) : (s.raiseAt q n).pins = s.pins := by cases q <;> rfl
@[simp] theorem raiseAt_nRST (q : Option SeatNo) (n : SeatNotice) : (s.raiseAt q n).nRST = s.nRST := by cases q <;> rfl
@[simp] theorem raiseAt_freeCount (q : Option SeatNo) (n : SeatNotice) : (s.raiseAt q n).freeCount = s.freeCount := by cases q <;> rfl
@[simp] theorem raiseAt_pending (q : Option SeatNo) (n : SeatNotice) : (s.raiseAt q n).pending = s.pending := by cases q <;> rfl

end Sys2Proof.Laws
end

