-- ==== Sys2Proof/Laws/Ops.lean ====
section
/-! SUPPORT. What the shared operations can do, each said once: the table's lookups after each write, and for every
operation on tools, groups and seats what it never touches (`KeepsRest`). Later proofs cite these and do not unfold the
operations. -/

namespace Sys2Proof.Laws

open Sys2Proof.Machine Sys2Proof.Safety

/-! ### Arguments -/

theorem toolArg_of_ok {t : Half} (h : toolOk t = true) : toolArg t = some t.toNat := by
  simp [toolOk] at h
  simp [toolArg, h.1, h.2]

theorem toolArg_eq_none {t : Half} (h : toolOk t = false) : toolArg t = none := by
  simp only [toolOk, Bool.and_eq_false_iff, bne_eq_false_iff_eq] at h
  simp only [toolArg]
  rw [if_pos]
  rcases h with h | h
  · exact Or.inl h
  · exact Or.inr h

theorem toolArg_some {t : Half} {n : Nat} (h : toolArg t = some n) : n = t.toNat ∧ toolOk t = true := by
  cases hk : toolOk t with
  | true => rw [toolArg_of_ok hk] at h; exact ⟨(Option.some.inj h).symm, rfl⟩
  | false => rw [toolArg_eq_none hk] at h; cases h

theorem seatArg_of_toNat {b : Byte} {q : SeatNo} (h : b.toNat = q.val) : seatArg b = some q := by
  have hq := q.isLt
  simp [seatArg, h]

theorem groupArg_of_toNat {b : Byte} {g : GroupNo} (h : b.toNat = g.val) : groupArg b = some g := by
  have hg := g.isLt
  simp [groupArg, h]

theorem channelArg_of_toNat {b : Byte} {c : ChannelNo} (h : b.toNat = c.val) : channelArg b = some c := by
  have hc := c.isLt
  simp [channelArg, h]

theorem seatArg_eq_none {b : Byte} (h : seatOk b = false) : seatArg b = none := by
  simp only [seatOk, decide_eq_false_iff_not] at h
  simp [seatArg, h]

theorem groupArg_eq_none {b : Byte} (h : groupOk b = false) : groupArg b = none := by
  simp only [groupOk, decide_eq_false_iff_not] at h
  simp [groupArg, h]

theorem channelArg_eq_none {b : Byte} (h : channelOk b = false) : channelArg b = none := by
  simp only [channelOk, decide_eq_false_iff_not] at h
  simp [channelArg, h]

theorem seatArg_isSome {b : Byte} : (seatArg b).isSome = seatOk b := by
  by_cases h : b.toNat < 16 <;> simp [seatArg, seatOk, h]

theorem groupArg_isSome {b : Byte} : (groupArg b).isSome = groupOk b := by
  by_cases h : b.toNat < 32 <;> simp [groupArg, groupOk, h]

theorem channelArg_isSome {b : Byte} : (channelArg b).isSome = channelOk b := by
  by_cases h : b.toNat < 9 <;> simp [channelArg, channelOk, h]

/-! ### Ends -/

theorem toolArg_ne {t : Half} (h0 : t ≠ 0) (h1 : t ≠ 0xFFFF) : toolArg t = some t.toNat := by
  rw [toolArg, if_neg]; rintro (h | h)
  · exact h0 h
  · exact h1 h

/-- The empty ended set, as the statements say it. -/
theorem ended_isEmpty_iff (r : ToolRecord) : r.ended.isEmpty = true ↔ ¬ HasEnd r := by
  obtain ⟨_, _, _, _, _, _, _, _, _, _, _, _, _, _, _, _, e, _⟩ := r
  obtain ⟨a, b, c, d⟩ := e
  simp [EndedSet.isEmpty, HasEnd, and_assoc]

theorem ended_isEmpty_false_iff (r : ToolRecord) : r.ended.isEmpty = false ↔ HasEnd r := by
  rw [← Bool.not_eq_true, ended_isEmpty_iff, not_not]

/-- A gain of the ended set is a new end. -/
theorem gains_iff (old new : ToolRecord) : new.ended.gains old.ended = true ↔ NewEnd old new := by
  simp [EndedSet.gains, NewEnd, or_assoc]

/-- Writing a record twice is writing it once. -/
theorem putRecord_putRecord (s : State) (r x : ToolRecord) (h : x.number = r.number) :
    (s.putRecord r).putRecord x = s.putRecord x := by
  unfold State.putRecord
  simp only [List.map_map]
  congr 1
  apply List.map_congr_left
  intro y _
  simp only [Function.comp, h]
  split
  · simp
  · rfl

/-! ### The table -/

theorem find_number {s : State} {n : Nat} {r : ToolRecord} (h : s.find n = some r) : r.number = n := by
  have := List.find?_some h
  simpa using this

theorem find_mem {s : State} {n : Nat} {r : ToolRecord} (h : s.find n = some r) : r ∈ s.table := List.mem_of_find?_eq_some h

theorem holder_seat {s : State} {q : SeatNo} {r : ToolRecord} (h : s.holder q = some r) : r.seat = some q := by
  have := List.find?_some h
  simpa using this

theorem holder_mem {s : State} {q : SeatNo} {r : ToolRecord} (h : s.holder q = some r) : r ∈ s.table :=
  List.mem_of_find?_eq_some h

theorem mountedAt_eq_some {s : State} {q : SeatNo} {r : ToolRecord} :
    s.mountedAt q = some r ↔ s.holder q = some r ∧ r.state.mounted = true := by
  unfold State.mountedAt
  cases s.holder q with
  | none => simp
  | some x =>
    by_cases hx : x.state.mounted = true
    · simp only [hx, if_true, Option.some.injEq]
      constructor
      · rintro rfl; exact ⟨rfl, hx⟩
      · exact fun h => h.1
    · simp only [hx, Bool.false_eq_true, if_false, Option.some.injEq, reduceCtorEq, false_iff, not_and]
      rintro rfl
      exact hx

/-- Looking a tool up after a record is written back at its own number. -/
theorem find_putRecord (s : State) (r : ToolRecord) (m : Nat) :
    (s.putRecord r).find m = if r.number = m then (s.find m).map fun _ => r else s.find m := by
  unfold State.find State.putRecord
  simp only
  generalize s.table = l
  induction l with
  | nil => simp
  | cons x xs ih =>
    simp only [List.map_cons, List.find?_cons]
    by_cases hx : x.number = r.number
    · rw [if_pos hx]
      by_cases hm : r.number = m
      · simp [hm, hx]
      · have h1 : (r.number == m) = false := by simpa using hm
        have h2 : (x.number == m) = false := by simpa [hx] using hm
        rw [h1, h2]
        simpa [hm] using ih
    · rw [if_neg hx]
      cases hxm : (x.number == m) with
      | true =>
        have : x.number = m := by simpa using hxm
        have hr : ¬ r.number = m := by rw [← this]; exact fun h => hx h.symm
        simp [hr]
      | false => simpa using ih

theorem find_putRecord_same {s : State} {r x : ToolRecord} (h : s.find r.number = some x) :
    (s.putRecord r).find r.number = some r := by
  rw [find_putRecord, if_pos rfl, h]; rfl

theorem find_putRecord_ne (s : State) {r : ToolRecord} {m : Nat} (h : r.number ≠ m) :
    (s.putRecord r).find m = s.find m := by
  rw [find_putRecord, if_neg h]

/-- Writing a record back leaves the tool numbers of the table as they are. -/
theorem numbers_putRecord (s : State) (r : ToolRecord) :
    (s.putRecord r).table.map (·.number) = s.table.map (·.number) := by
  simp only [putRecord_table, List.map_map]
  apply List.map_congr_left
  intro x _
  simp only [Function.comp]
  split
  · next h => exact h.symm
  · rfl

theorem mem_putRecord {s : State} {r x : ToolRecord} (h : x ∈ (s.putRecord r).table) : x = r ∨ x ∈ s.table := by
  simp only [putRecord_table, List.mem_map] at h
  obtain ⟨y, hy, rfl⟩ := h
  split
  · exact Or.inl rfl
  · exact Or.inr hy

theorem find_congr_table {s t : State} (h : t.table = s.table) (n : Nat) : t.find n = s.find n := by
  unfold State.find; rw [h]

theorem holder_congr_table {s t : State} (h : t.table = s.table) (q : SeatNo) : t.holder q = s.holder q := by
  unfold State.holder; rw [h]

/-- With tool numbers that rise, a record is the one its number finds. -/
theorem find_of_mem {s : State} (h : TableOrdered s) {r : ToolRecord} (hr : r ∈ s.table) : s.find r.number = some r := by
  have hp := h.1
  unfold State.find
  revert hr hp
  generalize s.table = l
  induction l with
  | nil => intro hr; cases hr
  | cons x xs ih =>
    intro hr hp
    simp only [List.map_cons, List.pairwise_cons, List.mem_map, forall_exists_index, and_imp,
      forall_apply_eq_imp_iff₂] at hp
    rcases List.mem_cons.1 hr with rfl | hr
    · simp
    · have : x.number ≠ r.number := Nat.ne_of_lt (hp.1 r hr)
      rw [List.find?_cons, beq_false_of_ne this]
      exact ih hr hp.2

/-! ### What the operations on tools, groups and seats never touch -/

/-- Kept by every operation on tools, groups and seats: the input lines, the scan, the link, the pins, the stations, the
device notices and the stretch time, the model's own fields, the tool numbers of the table, and every notice flag that
is set. -/
structure KeepsRest (s t : State) : Prop where
  cutLines  : t.cutLines = s.cutLines
  pendLines : t.pendLines = s.pendLines
  scan      : t.scan = s.scan
  link      : t.link = s.link
  pins      : t.pins = s.pins
  stations  : t.stations = s.stations
  device    : t.notices.device = s.notices.device
  stretch   : t.notices.stretch = s.notices.stretch
  nRST      : t.nRST = s.nRST
  freeCount : t.freeCount = s.freeCount
  pending   : t.pending = s.pending
  numbers   : t.table.map (·.number) = s.table.map (·.number)
  flags     : FlagsKept s t

theorem FlagsKept.refl (s : State) : FlagsKept s s := by simp [FlagsKept]

theorem FlagsKept.trans {s t u : State} (h₁ : FlagsKept s t) (h₂ : FlagsKept t u) : FlagsKept s u := by
  obtain ⟨a, b, c, d⟩ := h₁
  obtain ⟨a', b', c', d'⟩ := h₂
  refine ⟨fun q => ?_, b' ∘ b, c' ∘ c, d' ∘ d⟩
  obtain ⟨a1, a2, a3, a4, a5, a6, a7⟩ := a q
  obtain ⟨b1, b2, b3, b4, b5, b6, b7⟩ := a' q
  exact ⟨b1 ∘ a1, b2 ∘ a2, b3 ∘ a3, b4 ∘ a4, b5 ∘ a5, b6 ∘ a6, b7 ∘ a7⟩

theorem FlagsKept.of_notices {s t : State} (h : t.notices = s.notices) : FlagsKept s t := by
  unfold FlagsKept; rw [h]; simp

theorem KeepsRest.refl (s : State) : KeepsRest s s :=
  ⟨rfl, rfl, rfl, rfl, rfl, rfl, rfl, rfl, rfl, rfl, rfl, rfl, FlagsKept.refl s⟩

theorem KeepsRest.trans {s t u : State} (h₁ : KeepsRest s t) (h₂ : KeepsRest t u) : KeepsRest s u :=
  ⟨h₂.cutLines.trans h₁.cutLines, h₂.pendLines.trans h₁.pendLines, h₂.scan.trans h₁.scan, h₂.link.trans h₁.link,
   h₂.pins.trans h₁.pins, h₂.stations.trans h₁.stations, h₂.device.trans h₁.device, h₂.stretch.trans h₁.stretch,
   h₂.nRST.trans h₁.nRST, h₂.freeCount.trans h₁.freeCount, h₂.pending.trans h₁.pending,
   h₂.numbers.trans h₁.numbers, FlagsKept.trans h₁.flags h₂.flags⟩

theorem putRecord_keepsRest (s : State) (r : ToolRecord) : KeepsRest s (s.putRecord r) :=
  ⟨rfl, rfl, rfl, rfl, rfl, rfl, rfl, rfl, rfl, rfl, rfl, numbers_putRecord s r, FlagsKept.of_notices rfl⟩

theorem setGroup_keepsRest (s : State) (g : GroupNo) (x : Option Group) : KeepsRest s (s.setGroup g x) :=
  ⟨rfl, rfl, rfl, rfl, rfl, rfl, rfl, rfl, rfl, rfl, rfl, rfl, FlagsKept.of_notices rfl⟩

theorem setSeat_keepsRest (s : State) (q : SeatNo) (x : Seat) : KeepsRest s (s.setSeat q x) :=
  ⟨rfl, rfl, rfl, rfl, rfl, rfl, rfl, rfl, rfl, rfl, rfl, rfl, FlagsKept.of_notices rfl⟩

theorem setService_keepsRest (s : State) (q : SeatNo) (v : Service) : KeepsRest s (s.setService q v) :=
  setSeat_keepsRest s q _

theorem setWheel_keepsRest (s : State) (w : WheelNo) (x : Wheel) : KeepsRest s (s.setWheel w x) :=
  ⟨rfl, rfl, rfl, rfl, rfl, rfl, rfl, rfl, rfl, rfl, rfl, rfl, FlagsKept.of_notices rfl⟩

/-- Raising a flag keeps every flag that is set. -/
theorem raise_flags (s : State) (q : SeatNo) (n : SeatNotice) : FlagsKept s (s.raise q n) := by
  refine ⟨fun p => ?_, id, id, id⟩
  simp only [raise_notices, Fin.getElem_fin, Vector.getElem_set]
  by_cases h : q.val = p.val
  · have hq : q = p := Fin.ext h
    subst hq
    simp only [if_pos]
    cases n <;> simp [SeatFlags.raise]
  · simp [h]

theorem raise_keepsRest (s : State) (q : SeatNo) (n : SeatNotice) : KeepsRest s (s.raise q n) :=
  ⟨rfl, rfl, rfl, rfl, rfl, rfl, rfl, rfl, rfl, rfl, rfl, rfl, raise_flags s q n⟩

theorem raiseAt_keepsRest (s : State) (q : Option SeatNo) (n : SeatNotice) : KeepsRest s (s.raiseAt q n) := by
  cases q with
  | none => exact KeepsRest.refl s
  | some q => exact raise_keepsRest s q n

/-- A measure write touches the table and the notice flags alone. -/
theorem measureWrite_fields (s : State) (how : RecomputeBy) (old new : ToolRecord) :
    (measureWrite s how old new).1.groups = s.groups ∧ (measureWrite s how old new).1.seats = s.seats
      ∧ (measureWrite s how old new).1.wheels = s.wheels
      ∧ (measureWrite s how old new).1.table = (s.putRecord (recompute how (s.marginOf old) new)).table := by
  simp only [measureWrite]
  split <;> split <;> simp

theorem measureWrite_keepsRest (s : State) (how : RecomputeBy) (old new : ToolRecord) :
    KeepsRest s (measureWrite s how old new).1 := by
  simp only [measureWrite]
  have h0 := putRecord_keepsRest s (recompute how (s.marginOf old) new)
  split <;> split
  · exact (h0.trans (raiseAt_keepsRest _ _ _)).trans (raiseAt_keepsRest _ _ _)
  · exact h0.trans (raiseAt_keepsRest _ _ _)
  · exact h0.trans (raiseAt_keepsRest _ _ _)
  · exact h0

theorem closeCut_keepsRest (s : State) (w : WheelNo) : KeepsRest s (closeCut s w).1 := by
  simp only [closeCut]
  split
  · exact (setWheel_keepsRest _ _ _).trans (measureWrite_keepsRest _ _ _ _)
  · exact setWheel_keepsRest _ _ _

theorem takeMember_keepsRest (s : State) (q : SeatNo) (g : GroupNo) (grp : Group) (i n : Nat) :
    KeepsRest s (takeMember s q g grp i n) := by
  unfold takeMember
  split
  · exact (((putRecord_keepsRest _ _).trans (setGroup_keepsRest _ _ _)).trans (setService_keepsRest _ _ _)).trans
      (raise_keepsRest _ _ _)
  · exact KeepsRest.refl s

theorem joinQueue_keepsRest (s : State) (q : SeatNo) (g : GroupNo) (grp : Group) :
    KeepsRest s (joinQueue s q g grp) :=
  ((setGroup_keepsRest _ _ _).trans (setService_keepsRest _ _ _)).trans (raise_keepsRest _ _ _)

theorem select_keepsRest (s : State) (q : SeatNo) (e : Option Nat) : KeepsRest s (select s q e) := by
  unfold select
  split
  · split
    · split
      · exact takeMember_keepsRest _ _ _ _ _ _
      · exact joinQueue_keepsRest _ _ _ _
    · exact KeepsRest.refl s
  · exact KeepsRest.refl s

theorem grantLoop_keepsRest (fuel : Nat) (s : State) (g : GroupNo) : KeepsRest s (grantLoop fuel s g) := by
  induction fuel generalizing s with
  | zero => exact KeepsRest.refl s
  | succ fuel ih =>
    unfold grantLoop
    split
    · split
      · split
        · exact ((setGroup_keepsRest _ _ _).trans (select_keepsRest _ _ _)).trans (ih _)
        · exact KeepsRest.refl s
      · exact KeepsRest.refl s
    · exact KeepsRest.refl s

theorem grant_keepsRest (s : State) (g : GroupNo) : KeepsRest s (grant s g) := by
  unfold grant
  split
  · exact grantLoop_keepsRest _ _ _
  · exact KeepsRest.refl s

theorem inform_keepsRest (s : State) (n : Nat) : KeepsRest s (inform s n) := by
  unfold inform
  split
  · split
    · split
      · exact grant_keepsRest _ _
      · exact KeepsRest.refl s
    · exact KeepsRest.refl s
  · exact KeepsRest.refl s

theorem returnRecord_keepsRest (s : State) (r : ToolRecord) : KeepsRest s (returnRecord s r) := by
  unfold returnRecord
  split
  · exact (putRecord_keepsRest _ _).trans (inform_keepsRest _ _)
  · exact (putRecord_keepsRest _ _).trans (inform_keepsRest _ _)
  all_goals exact KeepsRest.refl s

theorem finishCheck_keepsRest (s : State) (w : WheelNo) (r : ProbeResult) : KeepsRest s (finishCheck s w r) :=
  (setWheel_keepsRest _ _ _).trans (raise_keepsRest _ _ _)

theorem abortCheck_keepsRest (s : State) (w : WheelNo) : KeepsRest s (abortCheck s w) := by
  unfold abortCheck
  split
  · exact finishCheck_keepsRest _ _ _
  · exact KeepsRest.refl s

theorem stopFilters_keepsRest (s : State) (w : WheelNo) : KeepsRest s (stopFilters s w) := setWheel_keepsRest _ _ _

theorem suspicion_keepsRest (s : State) (w : WheelNo) (c : BreakCause) : KeepsRest s (suspicion s w c) := by
  simp only [suspicion]
  split
  · split
    · exact ((((putRecord_keepsRest _ _).trans (setService_keepsRest _ _ _)).trans (raise_keepsRest _ _ _)).trans
        (stopFilters_keepsRest _ _)).trans (abortCheck_keepsRest _ _)
    · exact KeepsRest.refl s
  · exact KeepsRest.refl s

theorem endCheck_keepsRest (s : State) (w : WheelNo) (r : ProbeResult) : KeepsRest s (endCheck s w r) := by
  unfold endCheck
  cases r <;> first
    | exact (finishCheck_keepsRest _ _ _).trans (suspicion_keepsRest _ _ _)
    | exact finishCheck_keepsRest _ _ _

theorem leaveService_keepsRest (s : State) (q : SeatNo) : KeepsRest s (leaveService s q) := by
  simp only [leaveService]
  split
  · split
    · exact (((closeCut_keepsRest _ _).trans (setWheel_keepsRest _ _ _)).trans (abortCheck_keepsRest _ _)).trans
        (stopFilters_keepsRest _ _)
    · exact ((setWheel_keepsRest _ _ _).trans (abortCheck_keepsRest _ _)).trans (stopFilters_keepsRest _ _)
  · exact KeepsRest.refl s

theorem takeOff_keepsRest (s : State) (q : SeatNo) (a b : RecState) : KeepsRest s (takeOff s q a b) := by
  unfold takeOff
  split
  · split
    · exact putRecord_keepsRest _ _
    · exact KeepsRest.refl s
  · exact KeepsRest.refl s

theorem beginChange_keepsRest (s : State) (q : SeatNo) : KeepsRest s (beginChange s q) :=
  ((leaveService_keepsRest _ _).trans (takeOff_keepsRest _ _ _ _)).trans (select_keepsRest _ _ _)

theorem toolEnded_keepsRest (s : State) (q : SeatNo) : KeepsRest s (toolEnded s q) := by
  unfold toolEnded
  split
  · split
    · exact setService_keepsRest _ _ _
    · exact beginChange_keepsRest _ _
  all_goals exact KeepsRest.refl s

theorem tell_keepsRest (p : State × Bool) (q : SeatNo) : KeepsRest p.1 (Machine.tell p q) := by
  unfold Machine.tell
  split
  · exact toolEnded_keepsRest _ _
  · exact KeepsRest.refl _

end Sys2Proof.Laws
end

