-- ==== Sys2Proof/Laws/Exec.lean ====
section
/-! SUPPORT. What `exec` is for each command: one lemma per constructor, and the ways a step ends. -/

namespace Sys2Proof.Laws

open Sys2Proof.Machine Sys2Proof.Safety

/-! ### The dispatch -/

variable (s : State)

theorem exec_enrol (t : Half) (k p : Byte) (m : Measures) : exec (.enrol t k p m) s = complete (.enrol t k p m) (enrolCommand t k p m) s := rfl
theorem exec_edit (t : Half) (a p : Byte) (m : Measures) : exec (.edit t a p m) s = complete (.edit t a p m) (editCommand t a p m) s := rfl
theorem exec_retire (t : Half) : exec (.retire t) s = complete (.retire t) (retireCommand t) s := rfl
theorem exec_query (t : Half) : exec (.query t) s = complete (.query t) (queryCommand t) s := rfl
theorem exec_next (t : Half) : exec (.next t) s = complete (.next t) (nextCommand t) s := rfl
theorem exec_lock (t : Half) : exec (.lock t) s = complete (.lock t) (lockCommand t) s := rfl
theorem exec_unlock (t : Half) : exec (.unlock t) s = complete (.unlock t) (unlockCommand t) s := rfl
theorem exec_define (a : DefineArgs) : exec (.define a) s = complete (.define a) (defineCommand a) s := rfl
theorem exec_link (g : Byte) (t : Half) (x : Byte) : exec (.link g t x) s = complete (.link g t x) (linkCommand g t x) s := rfl
theorem exec_unlink (t : Half) : exec (.unlink t) s = complete (.unlink t) (unlinkCommand t) s := rfl
theorem exec_group (g : Byte) : exec (.group g) s = complete (.group g) (groupCommand g) s := rfl
theorem exec_bind (q g : Byte) : exec (.bind q g) s = complete (.bind q g) (bindCommand q g) s := rfl
theorem exec_unbind (q : Byte) : exec (.unbind q) s = complete (.unbind q) (unbindCommand q) s := rfl
theorem exec_mount (q : Byte) (t : Half) : exec (.mount q t) s = complete (.mount q t) (mountCommand q t) s := rfl
theorem exec_swap (q : Byte) : exec (.swap q) s = complete (.swap q) (swapCommand q) s := rfl
theorem exec_whereSeat (q : Byte) : exec (.whereSeat q) s = complete (.whereSeat q) (whereCommand q) s := rfl
theorem exec_release (q : Byte) : exec (.release q) s = complete (.release q) (releaseCommand q) s := rfl
theorem exec_condemn (q : Byte) : exec (.condemn q) s = complete (.condemn q) (condemnCommand q) s := rfl
theorem exec_check (q : Byte) (lo hi : Half) (d : Byte) : exec (.check q lo hi d) s = complete (.check q lo hi d) (checkCommand q lo hi d) s := rfl
theorem exec_dress (q : Byte) (x : Half) : exec (.dress q x) s = complete (.dress q x) (dressCommand q x) s := rfl
theorem exec_readLoad (c : Byte) : exec (.readLoad c) s = complete (.readLoad c) (readLoadCommand c) s := rfl
theorem exec_setSense (c n : Byte) : exec (.setSense c n) s = complete (.setSense c n) (setSenseCommand c n) s := rfl
theorem exec_takeNotices : exec .takeNotices s = complete .takeNotices takeNoticesCommand s := rfl
theorem exec_setLink (w x : Byte) : exec (.setLink w x) s = complete (.setLink w x) (setLinkCommand w x) s := rfl
theorem exec_resume : exec .resume s = complete .resume resumeCommand s := rfl
theorem exec_ident : exec .ident s = complete .ident identCommand s := rfl
theorem exec_statusFrame (m : FrameMoment) (a : BitVec 2) (l : List Bool) : exec (.statusFrame m a l) s = whenRunning s (atMoment m id (endFrame a (takeStatus a l))) := rfl
theorem exec_commandFrame (m : FrameMoment) (a : BitVec 2) (l : List Bool) : exec (.commandFrame m a l) s = whenRunning s (atMoment m id (endFrame a (takeCommand a l))) := rfl
theorem exec_fetchFrame (m : FrameMoment) (a : BitVec 2) (l : List Bool) : exec (.fetchFrame m a l) s = whenRunning s (atMoment m (formReply a l) (endFrame a (takeFetch a l))) := rfl
theorem exec_frameOfNoKind (m : FrameMoment) (b : NoKind) : exec (.frameOfNoKind m b) s = whenRunning s (atMoment m id (takeNoKind b)) := rfl
theorem exec_cutRisingEdge (w : WheelNo) : exec (.cutRisingEdge w) s = whenRunning s (takeCutRise w) := rfl
theorem exec_cutFallingEdge (w : WheelNo) : exec (.cutFallingEdge w) s = whenRunning s (takeCutFall w) := rfl
theorem exec_partEnd (st : StationNo) : exec (.partEnd st) s = whenRunning s (takePartEnd st) := rfl
theorem exec_engageDelayEnd (w : WheelNo) : exec (.engageDelayEnd w) s = whenRunning s (takeEngageEnd w) := rfl
theorem exec_blankingTimeEnd (w : WheelNo) : exec (.blankingTimeEnd w) s = whenRunning s (takeBlankingEnd w) := rfl
theorem exec_filterTimerFires (w : WheelNo) (k : FilterKind) : exec (.filterTimerFires w k) s = whenRunning s (takeFilter w k) := rfl
theorem exec_overtime (w : WheelNo) : exec (.overtime w) s = whenRunning s (takeOvertime w) := rfl
theorem exec_checkDurationEnd (w : WheelNo) : exec (.checkDurationEnd w) s = whenRunning s (takeCheckEnd w) := rfl
theorem exec_stretchTimerEnd (st : StationNo) : exec (.stretchTimerEnd st) s = whenRunning s (takeStretchEnd st) := rfl
theorem exec_watchdogExpiry : exec .watchdogExpiry s = whenRunning s takeExpiry := rfl
theorem exec_conversionEnd (c : BitVec 10) : exec (.conversionEnd c) s = whenRunning s (convert c.toNat) := rfl
theorem exec_tick (x : Samples) :
    exec (.tick x) s = .next (if s.nRST then commit (settle s) (tickBody x (settle s)) else s) := rfl
theorem exec_restart :
    exec .restart s = .next (if s.nRST && s.link.mayComplete .restart then resetTo s .restart true else s) := rfl
theorem exec_powerOn (n : Bool) : exec (.powerOn n) s = .next (resetTo s .power n) := rfl
theorem exec_nrstLow : exec .nrstLow s = .next (if s.nRST then resetTo s .pin false else s) := rfl
theorem exec_nrstHigh : exec .nrstHigh s = .next (if s.nRST then s else resetTo s s.link.cause true) := rfl

/-! ### How a step ends -/

variable {s}

/-- While the part is held in reset a command does nothing. -/
theorem complete_held {i : Instr} {f : State → State × Reply} (h : s.nRST = false) : complete i f s = .next s := by
  simp [complete, whenRunning, h]

/-- While the part is held in reset an event does nothing. -/
theorem whenRunning_held {f : State → State} (h : s.nRST = false) : whenRunning s f = .next s := by
  simp [whenRunning, h]

/-- An event of a part that runs: its effect, and the end of the step. -/
theorem whenRunning_eq {f : State → State} (h : s.nRST = true) : whenRunning s f = .next (commit s (f s)) := by
  simp [whenRunning, h]

/-- A command that may complete: its effect, its reply stored, and the end of the step. -/
theorem complete_eq {i : Instr} {f : State → State × Reply} (h : Ready s i) :
    complete i f s = .next (answer s (f s).1 (f s).2) := by
  simp only [complete, whenRunning, h.1, h.2, if_true, answer, withReply]

theorem complete_of {i : Instr} {f : State → State × Reply} {u : State} {r : Reply} (h : Ready s i)
    (hf : f s = (u, r)) : complete i f s = .next (answer s u r) := by
  rw [complete_eq h, hf]

/-- A command that may not complete now, another being in execution, does nothing but end its step. -/
theorem complete_waits {i : Instr} {f : State → State × Reply} (h : s.nRST = true) (hm : s.link.mayComplete i = false) :
    complete i f s = .next (commit s s) := by
  simp [complete, whenRunning, h, hm]

theorem stored_answer (s t : State) (r : Reply) : Stored (answer s t r) r := rfl

end Sys2Proof.Laws
end

