-- ==== Sys2Proof/Laws/Arguments.lean ====
section
/-! SUPPORT. How the model's own tests and clamps say what the statements say: arguments, kinds, services, phases, the
parameters of a DEFINE, the fields of an EDIT. -/

namespace Sys2Proof.Laws

open Sys2Proof.Machine Sys2Proof.Safety

/-! ### Arguments out of range, and in it -/

theorem groupArg_le {b : Byte} (h : ¬ b.toNat > 31) : ∃ g : GroupNo, b.toNat = g.val := ⟨⟨b.toNat, by omega⟩, rfl⟩

theorem groupArg_gt {b : Byte} (h : b.toNat > 31) : groupArg b = none := by simp [groupArg]; omega

theorem seatArg_le {b : Byte} (h : ¬ b.toNat > 15) : ∃ q : SeatNo, b.toNat = q.val := ⟨⟨b.toNat, by omega⟩, rfl⟩

theorem seatArg_gt {b : Byte} (h : b.toNat > 15) : seatArg b = none := by simp [seatArg]; omega

theorem toolArg_bad {t : Half} (h : t = 0 ∨ t = 0xFFFF) : toolArg t = none := by
  rcases h with h | h <;> simp [toolArg, h]

theorem policyArg_of {b : Byte} {pol : Policy} (h : b = 0 ∧ pol = .priority ∨ b = 1 ∧ pol = .rotate) :
    policyArg b = some pol := by
  rcases h with ⟨rfl, rfl⟩ | ⟨rfl, rfl⟩ <;> rfl

theorem groupKindArg_of {b : Byte} {k : Kind} (h : b = 1 ∧ k = .wheel ∨ b = 2 ∧ k = .dresser) :
    groupKindArg b = some (some k) := by
  rcases h with ⟨h, rfl⟩ | ⟨h, rfl⟩ <;> rw [h] <;> rfl

theorem clamped_eq (a : DefineArgs) (pol : Policy) : paramsArg a pol = clamped a pol := by
  have h : ∀ lo hi x, lo ≤ hi → clamp lo hi x = within lo hi x := by
    intro lo hi x hh
    unfold clamp within
    split
    · omega
    · split <;> omega
  unfold paramsArg clamped
  simp only [h 1 1023 _ (by omega), h 1 50 _ (by omega), h 0 1023 _ (by omega), h 1 1000 _ (by omega)]
  congr 1
  by_cases hf : a.fast = 0
  · simp [hf]
  · have : (a.fast != 0) = true := by simpa using hf
    rw [this]
    exact (decide_eq_true hf).symm

theorem edited_eq (a p : Byte) (m : Measures) (r : ToolRecord) : editFields a p m r = edited a p m r := rfl

/-! ### Kinds, services and phases -/

theorem seatKind_iff (q : SeatNo) : seatKind q = .wheel ↔ q.val % 4 < 2 := by
  unfold seatKind
  split <;> simp_all

theorem kind_eq_iff (k : Kind) (q : SeatNo) : k = seatKind q ↔ (k = .wheel ↔ q.val % 4 < 2) := by
  rw [← seatKind_iff]
  cases k <;> cases seatKind q <;> simp

theorem inService_iff (s : State) (q : SeatNo) : s.seats[q].service.inService = true ↔ InService s q := by
  unfold InService
  cases s.seats[q].service <;> simp [Service.inService]

theorem holdsTool_iff (s : State) (q : SeatNo) : s.seats[q].service.holdsTool = true ↔ HoldsTool s q := by
  unfold HoldsTool InService
  cases s.seats[q].service <;> simp [Service.holdsTool]

theorem cutOpen_iff (s : State) (w : WheelNo) : s.wheels[w].phase.cutOpen = true ↔ CutOpen s w := by
  unfold CutOpen
  cases s.wheels[w].phase <;> simp [Phase.cutOpen]

theorem mounted_iff (v : RecState) : v.mounted = true ↔ v = .active ∨ v = .suspect := by
  cases v <;> simp [RecState.mounted]

theorem wheelOf_dresser (q : SeatNo) (h : q.val % 4 ≥ 2) : wheelOf q = none := by
  unfold wheelOf
  rw [if_neg]
  omega

theorem wheelOf_seatOfWheel (w : WheelNo) : wheelOf (seatOfWheel w) = some w := by revert w; decide

theorem wheelOf_some {q : SeatNo} {w : WheelNo} (h : wheelOf q = some w) : q = seatOfWheel w := by
  revert h; revert q w; decide

theorem seatOfWheel_injective {v w : WheelNo} (h : seatOfWheel v = seatOfWheel w) : v = w := by
  revert h; revert v w; decide

theorem stationOf_seatOfWheel (w : WheelNo) : stationOf (seatOfWheel w) = stationOfWheel w := by revert w; decide

theorem mem_seatsOf (q : SeatNo) (st : StationNo) : q ∈ seatsOf st ↔ q.val / 4 = st.val := by
  revert q st; decide

theorem mem_wheelsOf (w : WheelNo) (st : StationNo) : w ∈ wheelsOf st ↔ stationOfWheel w = st := by
  revert w st; decide

/-! ### Groups in use -/

theorem inUse_iff (s : State) (g : GroupNo) : s.groupInUse g = true ↔ InUse s g := by
  unfold State.groupInUse InUse State.boundSeats
  have : ((((List.finRange 16).filter fun q => s.seats[q].group == some g).length != 0) = true)
      ↔ ∃ q : SeatNo, s.seats[q].group = some g := by
    rw [bne_iff_ne, ne_eq, List.length_eq_zero_iff, List.filter_eq_nil_iff]
    simp only [List.mem_finRange, beq_iff_eq, not_forall, not_not, forall_const]
  rw [Bool.or_eq_true, this]
  cases h : s.groups[g] with
  | none => simp
  | some grp => cases grp.members <;> simp [*]

/-! ### Charges and recomputation -/

theorem chargeWear_eq (load nominal : Nat) (r : ToolRecord) :
    chargeWear (load + r.wearCarry) nominal r = worn load nominal r := by
  unfold chargeWear worn
  simp only
  congr 1
  have := Nat.div_add_mod (load + r.wearCarry) nominal
  rw [Nat.mul_comm] at this
  omega

theorem chargeDress_eq (stock : Nat) (r : ToolRecord) : chargeDress stock r = dressed stock r := rfl

theorem chargePart_eq (r : ToolRecord) : chargePart r = counted r := rfl

theorem recompute_charge (margin : Option Nat) (r : ToolRecord) : recompute .charge margin r = chargedTo margin r := rfl

theorem recompute_command (margin : Option Nat) (r : ToolRecord) : recompute .command margin r = judged margin r := rfl

end Sys2Proof.Laws
end

