-- ==== Sys2Proof/Laws/Bytes.lean ====
section
/-! SUPPORT. Bits and bytes of the link: fields of two and three bytes and their bytes, the measure fields, and a sequence
of bits as the bytes it was made of. -/

namespace Sys2Proof.Laws

open Sys2Proof.Machine Sys2Proof.Safety

/-! ### Fields of two and three bytes -/

theorem half_bit (a b : Byte) (i : Nat) :
    (half a b).getLsbD i = if i < 8 then b.getLsbD i else a.getLsbD (i - 8) := BitVec.getLsbD_append

theorem tri_bit (a b c : Byte) (i : Nat) :
    (tri a b c).getLsbD i
      = if i < 8 then c.getLsbD i else if i - 8 < 8 then b.getLsbD (i - 8) else a.getLsbD (i - 8 - 8) :=
  BitVec.getLsbD_append.trans (by congr 1; exact BitVec.getLsbD_append)

theorem half_bytes (x : Half) : half (x.extractLsb' 8 8) (x.extractLsb' 0 8) = x := by
  apply BitVec.eq_of_getLsbD_eq
  intro i hi
  rw [half_bit]
  simp only [BitVec.getLsbD_extractLsb']
  split
  · simp_all
  · have h1 : i - 8 < 8 := by omega
    have h2 : 8 + (i - 8) = i := by omega
    simp [h1, h2]

theorem tri_bytes (x : Tri) : tri (x.extractLsb' 16 8) (x.extractLsb' 8 8) (x.extractLsb' 0 8) = x := by
  apply BitVec.eq_of_getLsbD_eq
  intro i hi
  rw [tri_bit]
  simp only [BitVec.getLsbD_extractLsb']
  split
  · simp_all
  · split
    · next h1 =>
      have h2 : 8 + (i - 8) = i := by omega
      simp [h1, h2]
    · have h1 : i - 8 - 8 < 8 := by omega
      have h2 : 16 + (i - 8 - 8) = i := by omega
      simp [h1, h2]

theorem bytes_half (a b : Byte) : Half.bytes (half a b) = [a, b] := by
  have h : ∀ k (y : Byte), (∀ i, i < 8 → (half a b).getLsbD (k + i) = y.getLsbD i) → (half a b).extractLsb' k 8 = y := by
    intro k y h
    apply BitVec.eq_of_getLsbD_eq
    intro i hi
    rw [BitVec.getLsbD_extractLsb', h i hi]
    simp [hi]
  unfold Half.bytes
  rw [h 8 a, h 0 b]
  · intro i hi; rw [half_bit, if_pos (by omega)]; simp
  · intro i hi; rw [half_bit, if_neg (by omega)]; congr 1; omega

theorem bytes_tri (a b c : Byte) : Tri.bytes (tri a b c) = [a, b, c] := by
  have h : ∀ k (y : Byte), (∀ i, i < 8 → (tri a b c).getLsbD (k + i) = y.getLsbD i) →
      (tri a b c).extractLsb' k 8 = y := by
    intro k y h
    apply BitVec.eq_of_getLsbD_eq
    intro i hi
    rw [BitVec.getLsbD_extractLsb', h i hi]
    simp [hi]
  unfold Tri.bytes
  rw [h 16 a, h 8 b, h 0 c]
  · intro i hi; rw [tri_bit, if_pos (by omega)]; simp
  · intro i hi; rw [tri_bit, if_neg (by omega), if_pos (by omega)]; congr 1; omega
  · intro i hi; rw [tri_bit, if_neg (by omega), if_neg (by omega)]; congr 1; omega

/-! ### Measure fields -/

theorem decode_encodeMeasures (m : Measures) : decodeMeasures (encodeMeasures m) = some m := by
  unfold encodeMeasures Tri.bytes Half.bytes
  simp only [List.cons_append, List.nil_append, decodeMeasures, half_bytes, tri_bytes]

theorem encode_of_decodeMeasures {l : List Byte} {m : Measures} (h : decodeMeasures l = some m) :
    encodeMeasures m = l := by
  unfold decodeMeasures at h
  split at h
  · cases h
    unfold encodeMeasures
    simp only [bytes_half, bytes_tri, List.cons_append, List.nil_append]
  · cases h

theorem encodeMeasures_length (m : Measures) : (encodeMeasures m).length = 20 := rfl

/-! ### Bits of bytes -/

/-- The bits of a byte made of bits. -/
theorem bits8_get (b0 b1 b2 b3 b4 b5 b6 b7 : Bool) :
    bitsOf (bits8 b0 b1 b2 b3 b4 b5 b6 b7) = [b7, b6, b5, b4, b3, b2, b1, b0] := by
  revert b0 b1 b2 b3 b4 b5 b6 b7; decide

/-- A byte is made of its bits. -/
theorem bits8_bitsOf (b : Byte) :
    bits8 (b.getLsbD 0) (b.getLsbD 1) (b.getLsbD 2) (b.getLsbD 3) (b.getLsbD 4) (b.getLsbD 5) (b.getLsbD 6)
      (b.getLsbD 7) = b := by
  have h := bits8_get (b.getLsbD 0) (b.getLsbD 1) (b.getLsbD 2) (b.getLsbD 3) (b.getLsbD 4) (b.getLsbD 5) (b.getLsbD 6)
    (b.getLsbD 7)
  unfold bitsOf at h
  simp only [List.cons.injEq, and_true] at h
  obtain ⟨h7, h6, h5, h4, h3, h2, h1, h0⟩ := h
  apply BitVec.eq_of_getLsbD_eq
  intro i hi
  have : i = 0 ∨ i = 1 ∨ i = 2 ∨ i = 3 ∨ i = 4 ∨ i = 5 ∨ i = 6 ∨ i = 7 := by omega
  rcases this with rfl | rfl | rfl | rfl | rfl | rfl | rfl | rfl <;> assumption

theorem bitsOf_length (b : Byte) : (bitsOf b).length = 8 := rfl

/-- The bytes read from the bits of bytes are those bytes. -/
theorem bytesOf_bits (bs : List Byte) : bytesOf (bs.flatMap bitsOf) = bs := by
  induction bs with
  | nil => rfl
  | cons b bs ih =>
    rw [List.flatMap_cons]
    unfold bitsOf at ih ⊢
    simp only [List.cons_append, List.nil_append, bytesOf, bits8_bitsOf, ih]

theorem flatMap_bitsOf_length (bs : List Byte) : (bs.flatMap bitsOf).length = 8 * bs.length := by
  induction bs with
  | nil => rfl
  | cons b bs ih => rw [List.flatMap_cons, List.length_append, ih, bitsOf_length, List.length_cons]; omega

/-- A sequence of whole bytes' bits is the bits of the bytes read from it. -/
theorem bits_bytesOf (n : Nat) : ∀ l : List Bool, l.length = 8 * n → (bytesOf l).flatMap bitsOf = l := by
  induction n with
  | zero =>
    intro l hl
    have : l = [] := List.length_eq_zero_iff.1 hl
    subst this
    rfl
  | succ n ih =>
    intro l hl
    match l, hl with
    | b7 :: b6 :: b5 :: b4 :: b3 :: b2 :: b1 :: b0 :: rest, hl =>
      have hr : rest.length = 8 * n := by simp only [List.length_cons] at hl; omega
      simp only [bytesOf, List.flatMap_cons, bits8_get, ih rest hr, List.cons_append, List.nil_append]
    | [], hl => simp only [List.length_nil] at hl; omega
    | [_], hl => simp only [List.length_cons, List.length_nil] at hl; omega
    | [_, _], hl => simp only [List.length_cons, List.length_nil] at hl; omega
    | [_, _, _], hl => simp only [List.length_cons, List.length_nil] at hl; omega
    | [_, _, _, _], hl => simp only [List.length_cons, List.length_nil] at hl; omega
    | [_, _, _, _, _], hl => simp only [List.length_cons, List.length_nil] at hl; omega
    | [_, _, _, _, _, _], hl => simp only [List.length_cons, List.length_nil] at hl; omega
    | [_, _, _, _, _, _, _], hl => simp only [List.length_cons, List.length_nil] at hl; omega

/-- The four low bits of a header follow its first four. -/
theorem headerBits_low (addr : BitVec 2) (k1 k0 : Bool) (low : BitVec 4) :
    headerBits addr k1 k0 ++ lowBits low = bitsOf (headerByte addr k1 k0 low) := by
  revert addr k1 k0 low; decide

/-- Four bits are the low bits of a header. -/
theorem lowBits_surjective (a b c d : Bool) : ∃ low, lowBits low = [a, b, c, d] := by
  refine ⟨BitVec.ofNat 4 (8 * a.toNat + 4 * b.toNat + 2 * c.toNat + d.toNat), ?_⟩
  revert a b c d; decide

end Sys2Proof.Laws
end

