-- ==== Sys2Proof/Laws/Seats.lean ====
section
/-! SUPPORT. Raising notices, writing wheel seats, measure writes, the close of a cut and leaving service, each as one
equation. -/

namespace Sys2Proof.Laws

open Sys2Proof.Machine Sys2Proof.Safety

/-! ### Named writes, one after another -/

theorem setWheel_setWheel (s : State) (w : WheelNo) (x y : Wheel) : (s.setWheel w x).setWheel w y = s.setWheel w y := by
  unfold State.setWheel; simp

theorem setWheel_get (s : State) (w : WheelNo) (x : Wheel) : (s.setWheel w x).wheels[w] = x := by
  unfold State.setWheel; simp

theorem setWheel_self (s : State) (w : WheelNo) : s.setWheel w s.wheels[w] = s := by
  unfold State.setWheel; simp

theorem setSeat_get (s : State) (q : SeatNo) (x : Seat) : (s.setSeat q x).seats[q] = x := by
  unfold State.setSeat; simp

theorem setSeat_get_ne (s : State) {p q : SeatNo} (x : Seat) (h : p ≠ q) : (s.setSeat q x).seats[p] = s.seats[p] := by
  simp only [setSeat_seats, Fin.getElem_fin]
  rw [Vector.getElem_set_ne]
  exact fun h' => h (Fin.ext h'.symm)

theorem setWheel_get_ne (s : State) {v w : WheelNo} (x : Wheel) (h : v ≠ w) : (s.setWheel w x).wheels[v] = s.wheels[v] := by
  simp only [setWheel_wheels, Fin.getElem_fin]
  rw [Vector.getElem_set_ne]
  exact fun h' => h (Fin.ext h'.symm)

theorem raise_setWheel (s : State) (w : WheelNo) (x : Wheel) (q : SeatNo) (n : SeatNotice) :
    (s.setWheel w x).raise q n = (s.raise q n).setWheel w x := rfl

/-! ### Conditional notices -/

section
variable (s : State) (p : Prop) [Decidable p] (q : SeatNo) (n : SeatNotice)

theorem raiseIf_wheels : (raiseIf s p q n).wheels = s.wheels := by unfold raiseIf; split <;> rfl
theorem raiseIf_seats : (raiseIf s p q n).seats = s.seats := by unfold raiseIf; split <;> rfl
theorem raiseIf_stations : (raiseIf s p q n).stations = s.stations := by unfold raiseIf; split <;> rfl
theorem raiseIf_table : (raiseIf s p q n).table = s.table := by unfold raiseIf; split <;> rfl
theorem raiseIf_groups : (raiseIf s p q n).groups = s.groups := by unfold raiseIf; split <;> rfl

theorem raiseIf_setWheel (w : WheelNo) (x : Wheel) :
    raiseIf (s.setWheel w x) p q n = (raiseIf s p q n).setWheel w x := by unfold raiseIf; split <;> rfl

theorem raiseIf_putRecord (r : ToolRecord) :
    raiseIf (s.putRecord r) p q n = (raiseIf s p q n).putRecord r := by unfold raiseIf; split <;> rfl

end

theorem raiseIf_pos (s : State) {p : Prop} [Decidable p] (q : SeatNo) (n : SeatNotice) (h : p) :
    raiseIf s p q n = s.raise q n := if_pos h

theorem raiseIf_neg (s : State) {p : Prop} [Decidable p] (q : SeatNo) (n : SeatNotice) (h : ¬ p) :
    raiseIf s p q n = s := if_neg h

theorem raiseIf_congr (s : State) {p p' : Prop} [Decidable p] [Decidable p'] (q : SeatNo) (n : SeatNotice)
    (h : p ↔ p') : raiseIf s p q n = raiseIf s p' q n := by
  unfold raiseIf
  by_cases hp : p
  · rw [if_pos hp, if_pos (h.1 hp)]
  · rw [if_neg hp, if_neg fun x => hp (h.2 x)]

/-! ### Measure writes -/

/-- A measure write of a record that names a seat. -/
theorem measureWrite_eq (s : State) (how : RecomputeBy) (old new : ToolRecord) (q : SeatNo) (hq : old.seat = some q) :
    measureWrite s how old new =
      (raiseIf (raiseIf (s.putRecord (recompute how (s.marginOf old) new))
          (NewEnd old (recompute how (s.marginOf old) new) ∧ old.state = .active) q .spent)
        (old.warned = false ∧ (recompute how (s.marginOf old) new).warned = true ∧ old.state.mounted = true) q .warn,
       decide (NewEnd old (recompute how (s.marginOf old) new) ∧ old.state = .active)) := by
  generalize hx : recompute how (s.marginOf old) new = x
  unfold measureWrite
  simp only [hx]
  have h1 : (x.ended.gains old.ended && old.state == .active) = decide (NewEnd old x ∧ old.state = .active) := by
    rw [Bool.eq_iff_iff]; simp [gains_iff]
  have h2 : (!old.warned && x.warned && old.state.mounted)
      = decide (old.warned = false ∧ x.warned = true ∧ old.state.mounted = true) := by
    rw [Bool.eq_iff_iff]; simp [and_assoc]
  rw [h1, h2, hq]
  unfold raiseIf State.raiseAt
  simp only [decide_eq_true_eq]

/-- A measure write of a mounted record. -/
theorem measureWrite_mounted (s : State) (how : RecomputeBy) (old new : ToolRecord) (q : SeatNo)
    (hq : old.seat = some q) (hm : old.state = .active ∨ old.state = .suspect) :
    measureWrite s how old new =
      (raiseIf (raiseIf (s.putRecord (recompute how (s.marginOf old) new))
          (NewEnd old (recompute how (s.marginOf old) new) ∧ old.state = .active) q .spent)
        (old.warned = false ∧ (recompute how (s.marginOf old) new).warned = true) q .warn,
       decide (NewEnd old (recompute how (s.marginOf old) new) ∧ old.state = .active)) := by
  rw [measureWrite_eq s how old new q hq]
  congr 1
  apply raiseIf_congr
  rw [(mounted_iff _).2 hm]
  simp

/-- A measure write of a record that no seat has mounted. -/
theorem measureWrite_unmounted (s : State) (how : RecomputeBy) (old new : ToolRecord) (hm : old.state.mounted = false) :
    measureWrite s how old new = (s.putRecord (recompute how (s.marginOf old) new), false) := by
  unfold measureWrite
  have : (old.state == RecState.active) = false := by cases h : old.state <;> simp_all [RecState.mounted]
  simp [this, hm]

/-! ### The close of a cut, and leaving service -/

/-- The close of a cut at a seat whose tool is mounted and whose group is defined. -/
theorem closeCut_eq (s : State) (w : WheelNo) (r r' : ToolRecord) (g : GroupNo) (grp : Group)
    (hh : s.holder (seatOfWheel w) = some r) (hs : r.state = .active ∨ r.state = .suspect)
    (hg : s.seats[seatOfWheel w].group = some g) (hgs : s.groups[g] = some grp)
    (hr' : r' = chargedTo (s.marginOf r) (worn s.wheels[w].accumulator grp.params.nominalLoad r)) :
    closeCut s w =
      ((raiseIf (raiseIf (s.putRecord r') (NewEnd r r' ∧ r.state = .active) (seatOfWheel w) .spent)
          (r.warned = false ∧ r'.warned = true) (seatOfWheel w) .warn).setWheel w
          { s.wheels[w] with accumulator := 0, cutTimer := none },
       decide (NewEnd r r' ∧ r.state = .active)) := by
  have hq := holder_seat hh
  have hm := (mounted_iff r.state).2 hs
  unfold closeCut
  simp only
  have h1 : (s.setWheel w { s.wheels[w] with accumulator := 0, cutTimer := none }).mountedAt (seatOfWheel w)
      = some r := by
    rw [mountedAt_eq_some]; exact ⟨hh, hm⟩
  have h2 : (s.setWheel w { s.wheels[w] with accumulator := 0, cutTimer := none }).wheelParams w
      = some grp.params := by
    unfold State.wheelParams State.groupOf
    have : (s.setWheel w { s.wheels[w] with accumulator := 0, cutTimer := none }).seats[seatOfWheel w].group
        = some g := hg
    rw [this]
    have : (s.setWheel w { s.wheels[w] with accumulator := 0, cutTimer := none }).groups[g] = some grp := hgs
    simp only [this]; rfl
  rw [h1, h2]
  simp only
  rw [measureWrite_mounted _ _ _ _ _ hq hs, chargeWear_eq]
  have h3 : recompute .charge ((s.setWheel w { s.wheels[w] with accumulator := 0, cutTimer := none }).marginOf r)
      (worn s.wheels[w].accumulator grp.params.nominalLoad r) = r' := by
    rw [hr']; rfl
  rw [h3]
  have h4 : (s.setWheel w { s.wheels[w] with accumulator := 0, cutTimer := none }).putRecord r'
      = (s.putRecord r').setWheel w { s.wheels[w] with accumulator := 0, cutTimer := none } := rfl
  rw [h4, raiseIf_setWheel, raiseIf_setWheel]

/-- A probe check in flight is aborted, and the filter timers stop: the last two steps of leaving service. -/
theorem abort_stop (s : State) (w : WheelNo) (x : Wheel) :
    stopFilters (abortCheck (s.setWheel w { x with phase := .idle, phaseTimer := none, cutSeen := false }) w) w
      = (raiseIf s (x.check ≠ none) (seatOfWheel w) .check).setWheel w (rested x) := by
  unfold abortCheck
  rw [setWheel_get]
  cases h : x.check with
  | none =>
    simp only [Option.isSome_none, Bool.false_eq_true, if_false, stopFilters, setWheel_get, setWheel_setWheel, raiseIf,
      ne_eq, not_true_eq_false]
    congr 1
    simp [rested, h]
  | some c =>
    simp only [Option.isSome_some, if_true, stopFilters, finishCheck, setWheel_get, setWheel_setWheel, raiseIf, ne_eq,
      reduceCtorEq, not_false_eq_true, raise_setWheel]
    congr 1
    simp [rested, h]

/-- Aborting the probe check of a wheel seat. -/
theorem abortCheck_eq (s : State) (w : WheelNo) :
    abortCheck s w = (raiseIf s (s.wheels[w].check ≠ none) (seatOfWheel w) .check).setWheel w
      { s.wheels[w] with
        check := none
        lastResult := if s.wheels[w].check = none then s.wheels[w].lastResult else .aborted } := by
  unfold abortCheck
  cases h : s.wheels[w].check with
  | none =>
    simp only [Option.isSome_none, Bool.false_eq_true, if_false, raiseIf, ne_eq, not_true_eq_false, if_true]
    have h2 : ({ s.wheels[w] with check := none, lastResult := s.wheels[w].lastResult } : Wheel) = s.wheels[w] := by
      rw [← h]
    rw [h2, setWheel_self]
  | some c =>
    simp only [Option.isSome_some, if_true, finishCheck, raiseIf, ne_eq, reduceCtorEq, not_false_eq_true, if_false,
      raise_setWheel]

/-- A seat keeps its records, its service and its group through leaving service, and every other wheel seat is kept. -/
theorem leaveService_seats (s : State) (q : SeatNo) : (leaveService s q).seats = s.seats := by
  unfold leaveService
  split
  · next w _ =>
    have h1 : ∀ u : State, (stopFilters (abortCheck u w) w).seats = u.seats := by
      intro u; unfold stopFilters abortCheck finishCheck; split <;> simp
    simp only [h1, setWheel_seats]
    split
    · unfold closeCut
      simp only
      split
      · rw [(measureWrite_fields _ _ _ _).2.1]; rfl
      · rfl
    · rfl
  · rfl

theorem leaveService_groups (s : State) (q : SeatNo) : (leaveService s q).groups = s.groups := by
  unfold leaveService
  split
  · next w _ =>
    have h1 : ∀ u : State, (stopFilters (abortCheck u w) w).groups = u.groups := by
      intro u; unfold stopFilters abortCheck finishCheck; split <;> simp
    simp only [h1, setWheel_groups]
    split
    · unfold closeCut
      simp only
      split
      · rw [(measureWrite_fields _ _ _ _).1]; rfl
      · rfl
    · rfl
  · rfl

/-- With no cut open, leaving service leaves the table as it is. -/
theorem leaveService_table (s : State) (q : SeatNo) (h : s.cutOpenAt q = false) : (leaveService s q).table = s.table := by
  unfold leaveService
  unfold State.cutOpenAt at h
  split
  · next w hw =>
    rw [hw] at h
    simp only at h
    have h1 : ∀ u : State, (stopFilters (abortCheck u w) w).table = u.table := by
      intro u; unfold stopFilters abortCheck finishCheck; split <;> simp
    simp only [h, h1, Bool.false_eq_true, if_false, setWheel_table]
  · rfl

/-! ### Suspicions and dress charges -/

/-- A suspicion at a seat that holds an ACTIVE record, the wheel seat `x` being as before but for its timers. -/
theorem suspicion_eq (s : State) (w : WheelNo) (r : ToolRecord) (cause : BreakCause) (x : Wheel)
    (hh : s.holder (seatOfWheel w) = some r) (hst : r.state = .active) (hc : x.check = s.wheels[w].check)
    (hl : x.lastResult = s.wheels[w].lastResult)
    (hx : { x with loss := none, overload := none, contact := none, cutTimer := x.cutTimer }
      = { s.wheels[w] with loss := none, overload := none, contact := none, cutTimer := x.cutTimer }) :
    suspicion (s.setWheel w x) w cause = suspected s w r cause x.cutTimer := by
  unfold suspicion
  have h1 : (s.setWheel w x).holder (seatOfWheel w) = some r := hh
  simp only [h1, hst, if_true]
  have h2 : stopFilters ((((s.setWheel w x).putRecord { r with state := .suspect, cause := some cause }).setService
        (seatOfWheel w) .halted).raise (seatOfWheel w) .breakage) w
      = ((((s.putRecord { r with state := .suspect, cause := some cause }).setService (seatOfWheel w) .halted).raise
          (seatOfWheel w) .breakage)).setWheel w { x with loss := none, overload := none, contact := none } := by
    have h3 : (((s.setWheel w x).putRecord { r with state := .suspect, cause := some cause }).setService (seatOfWheel w)
          .halted).raise (seatOfWheel w) .breakage
        = ((((s.putRecord { r with state := .suspect, cause := some cause }).setService (seatOfWheel w) .halted).raise
          (seatOfWheel w) .breakage)).setWheel w x := rfl
    rw [h3]
    unfold stopFilters
    rw [setWheel_setWheel, setWheel_get]
  rw [h2, abortCheck_eq, setWheel_get, raiseIf_setWheel, setWheel_setWheel]
  unfold suspected
  simp only [Wheel.mk.injEq, true_and] at hx
  obtain ⟨a1, a2, a3, a4, a5, _⟩ := hx
  simp only [hc, hl, a1, a2, a3, a4, a5]

/-- A dress charge at a seat whose tool is mounted. -/
theorem dressSeat_eq (s : State) (q : SeatNo) (stock : Nat) (r : ToolRecord) (hh : s.holder q = some r)
    (hst : r.state = .active ∨ r.state = .suspect) :
    dressSeat s q stock = afterDress s q r (chargedTo (s.marginOf r) (dressed stock r)) := by
  unfold dressSeat
  have : s.mountedAt q = some r := mountedAt_eq_some.2 ⟨hh, (mounted_iff _).2 hst⟩
  rw [this]
  simp only
  rw [measureWrite_mounted s _ _ _ q (holder_seat hh) hst, chargeDress_eq, recompute_charge]
  generalize hr' : chargedTo (s.marginOf r) (dressed stock r) = r'
  unfold Machine.tell afterDress
  simp only
  by_cases hx : NewEnd r r' ∧ r.state = .active
  · simp only [decide_eq_true hx, if_true]
    unfold toolEnded
    simp only [raiseIf_seats, raiseIf_stations, putRecord_seats, putRecord_stations]
    by_cases hs : s.seats[q].service = .running
    · refine Eq.trans ?_ (if_pos ⟨hx.1, hx.2, hs⟩).symm; simp only [hs]
    · refine Eq.trans ?_ (if_neg (fun h => hs h.2.2)).symm
      cases h : s.seats[q].service <;> simp_all
  · refine Eq.trans ?_ (if_neg (fun h => hx ⟨h.1, h.2.1⟩)).symm
    simp only [decide_eq_false hx, Bool.false_eq_true, if_false]

end Sys2Proof.Laws
end

