-- ==== Sys2Proof/Laws/Selection.lean ====
section
/-! SUPPORT. Selection: eligibility as the rules say it, the search order, what a choice guarantees, and what the
selection of a member or a place in the queue does. -/

namespace Sys2Proof.Laws

open Sys2Proof.Machine Sys2Proof.Safety

/-! ### Eligible members -/

theorem eligible_iff (s : State) (g : GroupNo) (n : Nat) :
    s.eligible g n = true ↔ ∃ r, s.find n = some r ∧ r.state = .available ∧ r.group = some g ∧ ¬ HasEnd r := by
  unfold State.eligible
  cases h : s.find n with
  | none => simp
  | some r =>
    simp only [ToolRecord.eligibleIn, Bool.and_eq_true, beq_iff_eq, ended_isEmpty_iff, Option.some.injEq, exists_eq_left', and_assoc]

theorem eligibleIn_iff (r : ToolRecord) (g) : r.eligibleIn g = true ↔ r.state = .available ∧ r.group = some g ∧ ¬ HasEnd r := by
  simp only [ToolRecord.eligibleIn, Bool.and_eq_true, beq_iff_eq, ended_isEmpty_iff, and_assoc]

theorem hasEligible_iff (s : State) (g : GroupNo) (grp : Group) (h : s.groups[g] = some grp) :
   s.hasEligible g = true ↔ ∃ n ∈ grp.members, s.eligible g n = true := by
  unfold State.hasEligible; rw [h]; simp

/-! ### The search order -/

/-- The member list as pairs of index and tool number. -/
def indexed (grp : Group) : List (Nat × Nat) := grp.members.zipIdx.map fun p => (p.2, p.1)

theorem indexed_fst (grp : Group) : (indexed grp).map (·.1) = List.range grp.members.length := by
  unfold indexed
  rw [List.map_map]
  have := List.zipIdx_map_snd 0 grp.members
  show List.map Prod.snd _ = _
  rw [this, List.range_eq_range']

theorem indexed_mem (grp : Group) : ∀ p ∈ indexed grp, grp.members[p.1]? = some p.2 := by
  intro p hp
  unfold indexed at hp
  rw [List.mem_map] at hp
  obtain ⟨x, hx, rfl⟩ := hp
  exact List.mem_zipIdx_iff_getElem?.1 hx

theorem searchOrder_mem (grp : Group) (p) : p ∈ searchOrder grp ↔ p ∈ indexed grp := by
  unfold searchOrder
  simp only
  split
  · rw [List.mem_append, or_comm, ← List.mem_append, List.take_append_drop]; rfl
  · rfl

theorem searchOrder_has (grp : Group) (n : Nat) (h : n ∈ grp.members) : ∃ p ∈ searchOrder grp, p.2 = n := by
  obtain ⟨i, hi⟩ := List.mem_iff_getElem?.1 h
  refine ⟨(i, n), (searchOrder_mem grp _).2 ?_, rfl⟩
  unfold indexed
  rw [List.mem_map]
  exact ⟨(n, i), List.mem_zipIdx_iff_getElem?.2 hi, rfl⟩

/-! ### What a choice guarantees -/

/-- A choice found nothing exactly when no member fits. -/
theorem choose_none_iff (s : State) (g : GroupNo) (grp : Group) (e : Option Nat) :
    choose s g grp e = none ↔ ∀ p ∈ searchOrder grp, ¬ Fits s g e p.2 := by
  have hfit : ∀ p : Nat × Nat, (s.eligible g p.2 && e != some p.2) = true ↔ Fits s g e p.2 := by
    intro p; rw [Bool.and_eq_true, eligible_iff, bne_iff_ne]
  unfold choose
  simp only
  split
  · next p hp =>
    simp only [reduceCtorEq, false_iff, not_forall, not_not]
    have h1 := List.find?_some hp
    rw [Bool.and_eq_true] at h1
    exact ⟨p, List.mem_of_find?_eq_some hp, (hfit p).1 h1.1⟩
  · rw [List.find?_eq_none]
    exact forall₂_congr fun p _ => not_congr (hfit p)

/-- The member chosen fits and stands in the search order. -/
theorem choose_fits {s : State} {g : GroupNo} {grp : Group} {e : Option Nat} {p : Nat × Nat}
    (h : choose s g grp e = some p) : Fits s g e p.2 ∧ p ∈ searchOrder grp := by
  have hfit : ∀ p : Nat × Nat, (s.eligible g p.2 && e != some p.2) = true ↔ Fits s g e p.2 := by
    intro p; rw [Bool.and_eq_true, eligible_iff, bne_iff_ne]
  unfold choose at h
  simp only at h
  split at h
  · next x hx =>
    cases h
    have h1 := List.find?_some hx
    rw [Bool.and_eq_true] at h1
    exact ⟨(hfit p).1 h1.1, List.mem_of_find?_eq_some hx⟩
  · have h1 := List.find?_some h
    exact ⟨(hfit p).1 h1, List.mem_of_find?_eq_some h⟩

/-- The tool chosen has a record that may be taken. -/
theorem choose_find {s : State} {g : GroupNo} {grp : Group} {e : Option Nat} {i n : Nat}
    (h : choose s g grp e = some (i, n)) :
    ∃ r, s.find n = some r ∧ r.state = .available ∧ r.group = some g ∧ ¬ HasEnd r := (choose_fits h).1.1

/-- The tool chosen is the member at the index chosen. -/
theorem choose_member {s : State} {g : GroupNo} {grp : Group} {e : Option Nat} {i n : Nat}
    (h : choose s g grp e = some (i, n)) : n ∈ grp.members ∧ grp.members[i]? = some n := by
  have := indexed_mem grp (i, n) ((searchOrder_mem grp _).1 (choose_fits h).2)
  exact ⟨List.mem_of_getElem? this, this⟩

/-- A member that fits is enough for a choice. -/
theorem choose_some (s : State) (g : GroupNo) (grp : Group) (e : Option Nat) (n : Nat) (hn : n ∈ grp.members)
    (he : s.eligible g n = true) (hne : e ≠ some n) : ∃ i m, choose s g grp e = some (i, m) := by
  cases h : choose s g grp e with
  | some p => exact ⟨p.1, p.2, rfl⟩
  | none =>
    exfalso
    obtain ⟨p, hp, rfl⟩ := searchOrder_has grp n hn
    exact ((choose_none_iff s g grp e).1 h p hp) ⟨(eligible_iff _ _ _).1 he, hne⟩

/-! ### Selection as named writes -/

theorem moveCursor_eq (grp : Group) (i : Nat) : grp.moveCursor i = { grp with cursor := if grp.params.policy = .rotate then some i else grp.cursor } := by
  unfold Group.moveCursor
  cases h : grp.params.policy <;> simp

/-- Selection that chooses a member. -/
theorem select_of_some {s : State} {q : SeatNo} {g : GroupNo} {grp : Group} {e : Option Nat} {i n : Nat} {r : ToolRecord}
    (hq : s.seats[q].group = some g) (hg : s.groups[g] = some grp) (hc : choose s g grp e = some (i, n))
    (hf : s.find n = some r) :
    select s q e = (((s.putRecord { r with state := .chosen, seat := some q }).setGroup g
      (some (grp.moveCursor i))).setService q .changing).raise q .change := by
  unfold select takeMember
  simp only [hq, hg, hc, hf]

/-- Selection that chooses none. -/
theorem select_of_none {s : State} {q : SeatNo} {g : GroupNo} {grp : Group} {e : Option Nat}
    (hq : s.seats[q].group = some g) (hg : s.groups[g] = some grp) (hc : choose s g grp e = none) :
    select s q e = joinQueue s q g grp := by
  unfold select
  simp only [hq, hg, hc]

/-- A tool that does not become eligible makes the arbiter do nothing. -/
theorem inform_idle {s : State} {r : ToolRecord} (hf : s.find r.number = some r)
    (h : r.state ≠ .available ∨ HasEnd r) : inform s r.number = s := by
  unfold inform
  rw [hf]
  simp only
  split
  · next g _ =>
    rw [if_neg]
    rw [eligibleIn_iff]
    rintro ⟨a, _, c⟩
    rcases h with h | h
    · exact h a
    · exact c h
  · rfl

/-- No seat waits in the tool's group: the arbiter does nothing. -/
theorem inform_unasked {s : State} {r : ToolRecord} {g : GroupNo} {grp : Group} (hf : s.find r.number = some r)
    (hg : r.group = some g) (hgs : s.groups[g] = some grp) (hq : grp.queue = []) : inform s r.number = s := by
  unfold inform
  rw [hf]
  simp only [hg]
  split
  · unfold grant
    simp only [hgs, hq]
    rfl
  · rfl

end Sys2Proof.Laws
end

