-- ==== Sys2Proof/Laws/Groups.lean ====
section
/-! SUPPORT. Group definitions: a removal from a member list, notices raised over a list of records, and the members of a
group rewritten by a DEFINE. -/

namespace Sys2Proof.Laws

open Sys2Proof.Machine Sys2Proof.Safety

/-! ### Removal -/

/-- The removal of a member as the statements say it. -/
theorem erase_without (grp : Group) (n : Nat) : grp.removeMember n = without grp n := by
  unfold Group.removeMember without cursorAfterRemoval
  cases grp.cursor with
  | none => rfl
  | some c =>
    simp only [Option.bind_some, Nat.pos_iff_ne_zero, gt_iff_lt]
    split
    · rfl
    · by_cases h : c = 0 <;> simp [h]

/-! ### Rewriting records in place -/

/-- Looking a tool up in a table rewritten record by record, the tool numbers kept. -/
theorem find_map_table (s t : State) (f : ToolRecord → ToolRecord) (hf : ∀ r, (f r).number = r.number) (ht : t.table = s.table.map f) (n : Nat) :
   t.find n = (s.find n).map f := by
  unfold State.find
  rw [ht, List.find?_map]
  congr 2
  funext r; simp [Function.comp, hf]

/-- Writing a state over a record just written. -/
theorem restate_putRecord (s : State) (r x : ToolRecord) (v : RecState) (h : s.find r.number = some x) :
    (s.putRecord r).restate r.number v = s.putRecord { r with state := v } := by
  unfold State.restate
  rw [find_putRecord_same h]
  exact putRecord_putRecord s r _ rfl

theorem restate_eq (s : State) (n : Nat) (x : ToolRecord) (v : RecState) (h : s.find n = some x) :
    s.restate n v = s.putRecord { x with state := v } := by
  unfold State.restate; rw [h]

/-- The seat of a record just written selects again. -/
theorem reselect_putRecord (s : State) (r x : ToolRecord) (v : RecState) (q) (h : s.find r.number = some x) (hq : r.seat = some q) :
    reselect (s.putRecord r) r.number v = select (s.putRecord { r with state := v, seat := none }) q none := by
  unfold reselect
  rw [find_putRecord_same h]
  simp only [hq]
  have h2 : (s.putRecord r).putRecord { r with state := v, seat := none } = s.putRecord { r with state := v, seat := none } :=
    putRecord_putRecord s r _ rfl
  exact congrArg (fun x => select x q none) h2

theorem reselect_eq (s : State) (n) (r : ToolRecord) (v : RecState) (q) (h : s.find n = some r) (hq : r.seat = some q) :
    reselect s n v = select (s.putRecord { r with state := v, seat := none }) q none := by
  unfold reselect
  rw [h]
  simp only [hq]

/-! ### WARN raised over a list of records -/

theorem raiseAt_warn (s : State) (o : Option SeatNo) :
   (∀ q : SeatNo, ((s.raiseAt o .warn).notices.seats[q].warn = true ↔ s.notices.seats[q].warn = true ∨ o = some q)
      ∧ (s.raiseAt o .warn).notices.seats[q] = { s.notices.seats[q] with warn := (s.raiseAt o .warn).notices.seats[q].warn })
   ∧ s.raiseAt o .warn = { s with notices := (s.raiseAt o .warn).notices } ∧ (s.raiseAt o .warn).notices.device = s.notices.device ∧ (s.raiseAt o .warn).notices.stretch = s.notices.stretch := by
  cases o with
  | none => simp [State.raiseAt]
  | some p =>
    refine ⟨?_, rfl, rfl, rfl⟩
    intro q
    simp only [State.raiseAt, raise_notices, Fin.getElem_fin]
    by_cases hp : p = q
    · subst hp; simp [SeatFlags.raise]
    · rw [Vector.getElem_set_ne]
      · simp [hp]
      · intro h; exact hp (Fin.ext h)

theorem fold_warn (l : List ToolRecord) (s t : State) (ht : l.foldl (fun s r => s.raiseAt r.seat .warn) s = t) :
   (∀ q : SeatNo, (t.notices.seats[q].warn = true ↔ s.notices.seats[q].warn = true ∨ ∃ r ∈ l, r.seat = some q)
      ∧ t.notices.seats[q] = { s.notices.seats[q] with warn := t.notices.seats[q].warn })
   ∧ t = { s with notices := t.notices } ∧ t.notices.device = s.notices.device ∧ t.notices.stretch = s.notices.stretch := by
  induction l generalizing s with
  | nil => subst ht; simp
  | cons x xs ih =>
    rw [List.foldl_cons] at ht
    obtain ⟨h1, h2, h3, h4⟩ := ih _ ht
    obtain ⟨k1, k2, k3, k4⟩ := raiseAt_warn s x.seat
    refine ⟨?_, ?_, h3.trans k3, h4.trans k4⟩
    · intro q
      obtain ⟨a, b⟩ := h1 q
      obtain ⟨c, d⟩ := k1 q
      refine ⟨?_, ?_⟩
      · rw [a, c]; simp [or_assoc]
      · rw [b, d]
    · rw [h2, k2]

/-- Everything the rewarning of a group does. -/
theorem rewarn_spec (s t : State) (g : GroupNo) (m : Nat) (ht : rewarnMembers s g m = t) :
   t.table = s.table.map (fun r => if r.group = some g then { r with warned := computedWarning r (some m) } else r)
   ∧ t = { s with table := t.table, notices := t.notices } ∧ t.notices.device = s.notices.device ∧ t.notices.stretch = s.notices.stretch
   ∧ ∀ q : SeatNo, (t.notices.seats[q].warn = true ↔ s.notices.seats[q].warn = true
          ∨ (∃ r ∈ s.table, r.group = some g ∧ r.seat = some q
            ∧ (r.state = .active ∨ r.state = .suspect) ∧ r.warned = false
            ∧ computedWarning r (some m) = true))
          ∧ t.notices.seats[q] = { s.notices.seats[q] with warn := t.notices.seats[q].warn } := by
  have hm : ∀ v : RecState, v.mounted = true ↔ v = .active ∨ v = .suspect := by intro v; cases v <;> simp [RecState.mounted]
  unfold rewarnMembers at ht
  obtain ⟨a, b, c, d⟩ := fold_warn _ _ _ ht
  refine ⟨?_, ?_, c, d, ?_⟩
  · rw [b]
  · rw [b]
  · intro q
    obtain ⟨e, f⟩ := a q
    refine ⟨?_, f⟩
    refine e.trans ?_
    refine or_congr Iff.rfl ?_
    simp only [List.mem_filter, Bool.and_eq_true, beq_iff_eq, hm, Bool.not_eq_true']
    constructor
    · rintro ⟨r, ⟨h, ⟨⟨x1, x2⟩, x3⟩, x4⟩, x5⟩; exact ⟨r, h, x1, x5, x2, x3, x4⟩
    · rintro ⟨r, h, x1, x5, x2, x3, x4⟩; exact ⟨r, ⟨h, ⟨⟨x1, x2⟩, x3⟩, x4⟩, x5⟩

end Sys2Proof.Laws
end

