-- ==== Sys2Proof/Laws/Outputs.lean ====
section
/-! SUPPORT. The output levels as the rules say them, and the end of a step in which nothing but the levels' causes is
kept. -/

namespace Sys2Proof.Laws

open Sys2Proof.Machine Sys2Proof.Safety

theorem notices_any_iff (n : Notices) :
    n.any = true ↔ (∃ q : SeatNo, n.seats[q].any = true) ∨ n.device.reset = true ∨ n.device.hold = true
      ∨ n.device.sense = true := by
  unfold Notices.any
  simp only [Bool.or_eq_true, List.any_eq_true, List.mem_finRange, true_and]
  tauto

theorem someSeat_iff (s : State) (v : Service) : someSeat s v = true ↔ ∃ q : SeatNo, s.seats[q].service = v := by
  unfold someSeat
  simp only [List.any_eq_true, List.mem_finRange, true_and, beq_iff_eq]

theorem litCondition_iff (s : State) (st : StationNo) : litCondition s st = true ↔ Lit s st := by
  unfold litCondition Lit
  simp only [Bool.or_eq_true, List.any_eq_true, mem_seatsOf, beq_iff_eq]

theorem lampLevel_iff (s : State) (st : StationNo) :
    lampLevel s st = true ↔ s.link.hold = true
      ∨ (∃ q : SeatNo, AtStation q st ∧ (s.seats[q].service = .halted ∨ s.seats[q].service = .waiting))
      ∨ s.stations[st].stretch ≠ none := by
  unfold lampLevel
  rw [Bool.or_eq_true, litCondition_iff, Option.isSome_iff_ne_none]
  unfold Lit AtStation
  exact or_assoc

theorem permitLevel_iff (s : State) (st : StationNo) :
    permitLevel s st = true ↔ s.link.hold = false ∧ (∃ q, AtStation q st ∧ Bound s q)
      ∧ ∀ q : SeatNo, AtStation q st → Bound s q → s.seats[q].service = .running ∨ s.seats[q].service = .due := by
  unfold permitLevel Bound AtStation
  simp only [Bool.and_eq_true, Bool.not_eq_true', List.any_eq_true, List.all_eq_true, mem_seatsOf, bne_iff_ne,
    Bool.or_eq_true, beq_iff_eq, inService_iff, and_assoc]
  refine and_congr Iff.rfl (and_congr Iff.rfl (forall_congr' fun q => forall_congr' fun _ => ?_))
  unfold InService
  tauto

theorem nATTNLevel_iff (s : State) :
    nATTNLevel s = false ↔ (∃ q : SeatNo, s.notices.seats[q].any = true) ∨ s.notices.device.reset = true
      ∨ s.notices.device.hold = true ∨ s.notices.device.sense = true := by
  unfold nATTNLevel
  rw [Bool.not_eq_false', notices_any_iff]

/-- No lit condition begins where none has changed. -/
theorem startStretch_self (s : State) : startStretch s s = s.stations := by
  apply Vector.ext
  intro i hi
  simp [startStretch]

/-- No lit condition begins where the link and the services are as they were. -/
theorem startStretch_congr {s a : State} (hl : a.link.hold = s.link.hold) (hs : a.seats = s.seats) :
    startStretch s a = a.stations := by
  apply Vector.ext
  intro i hi
  have : ∀ st, litCondition a st = litCondition s st := by intro st; unfold litCondition; rw [hl, hs]
  simp [startStretch, this]

/-- Outputs that follow their conditions are the levels driven. -/
theorem drivenPins_self {s : State} (h : PinsDriven s) : drivenPins s = s.pins := by
  obtain ⟨hp, hl, hn⟩ := h
  have h1 : Vector.ofFn (permitLevel s) = s.pins.permit := by
    apply Vector.ext
    intro i hi
    rw [Vector.getElem_ofFn, Bool.eq_iff_iff, permitLevel_iff]
    exact (hp ⟨i, hi⟩).symm
  have h2 : Vector.ofFn (lampLevel s) = s.pins.lamp := by
    apply Vector.ext
    intro i hi
    rw [Vector.getElem_ofFn, Bool.eq_iff_iff, lampLevel_iff]
    exact (hl ⟨i, hi⟩).symm
  have h3 : nATTNLevel s = s.pins.nATTN := by
    have hx := (nATTNLevel_iff s).trans hn.symm
    cases h4 : nATTNLevel s <;> cases h5 : s.pins.nATTN <;> simp_all
  unfold drivenPins
  rw [h1, h2, h3]

/-- A step that changes neither the services, the link's HOLD, the stations nor the notices drives nothing anew. -/
theorem commit_of_same {s a : State} (h : PinsDriven s) (hl : a.link.hold = s.link.hold) (hs : a.seats = s.seats)
    (hst : ∀ st : StationNo, a.stations[st].stretch = s.stations[st].stretch) (hn : a.notices = s.notices)
    (hp : a.pins = { s.pins with sdo := a.pins.sdo }) : commit s a = a := by
  have h1 := startStretch_congr hl hs
  have hp1 : a.pins.permit = s.pins.permit := by rw [hp]
  have hp2 : a.pins.lamp = s.pins.lamp := by rw [hp]
  have hp3 : a.pins.nATTN = s.pins.nATTN := by rw [hp]
  have h2 : PinsDriven a := by
    obtain ⟨h1, h2, h3⟩ := h
    refine ⟨fun st => ?_, fun st => ?_, ?_⟩
    · unfold Bound
      rw [hp1, hl, hs]
      exact h1 st
    · rw [hp2, hl, hs, hst st]
      exact h2 st
    · rw [hp3, hn]
      exact h3
  have h3 := drivenPins_self h2
  unfold commit
  rw [h1]
  simp only
  rw [h3]

/-- The end of a step that changes nothing. -/
theorem commit_self {s : State} (h : PinsDriven s) : commit s s = s :=
  commit_of_same h rfl rfl (fun _ => rfl) rfl rfl

/-- A command is refused with a code, and changes nothing, if its own function is and does. -/
theorem answers_of {i : Instr} {f : State → State × Reply} {s : State} {c : ReplyCode} (h : Ready s i)
    (he : exec i s = complete i f s) (hf : f s = (s, reply c)) : Answers i s c := by
  refine ⟨_, he.trans (complete_of h hf), rfl, fun hp => ?_⟩
  have : commit s (s.setLink (withReply s.link (reply c))) = s.setLink (withReply s.link (reply c)) :=
    commit_of_same hp rfl rfl (fun _ => rfl) rfl rfl
  unfold OnlyReply answer
  rw [this]
  rfl

end Sys2Proof.Laws
end

