-- ==== Sys2Proof/Laws/Events.lean ====
section
/-! SUPPORT. Events of the inputs and of the load scan: the parameters of a seat's group, the blanking time of a cut,
the mark of an edge, the end of a conversion, and what a published average and a sense fault never touch. -/

namespace Sys2Proof.Laws

open Sys2Proof.Machine Sys2Proof.Safety

/-- The parameters of the group that a wheel seat is bound to. -/
theorem wheelParams_of {s : State} {w : WheelNo} {g : GroupNo} {grp : Group} (hg : s.seats[seatOfWheel w].group = some g)
    (hgs : s.groups[g] = some grp) : s.wheelParams w = some grp.params := by
  unfold State.wheelParams State.groupOf
  simp only [hg, hgs]
  rfl

/-- The blanking of a cut runs the time that stands at its falling edge or the one it began with (log entry 23). -/
theorem settleTime_cases (s : State) (w : WheelNo) :
    s.settleTime w = s.blankingTime w ∨ s.settleTime w = s.wheels[w].cutBlanking := by
  unfold State.settleTime
  split
  · exact .inl rfl
  · split
    · exact .inl rfl
    · exact .inr rfl

/-- Where the group's blanking time is the one that the cut began with, the blanking runs it. -/
theorem settleTime_of_same {s : State} {w : WheelNo} (h : s.wheels[w].cutBlanking = s.blankingTime w) :
    s.settleTime w = s.blankingTime w := if_pos h

/-- Taking the mark of an edge touches the lines alone. -/
theorem takeCutMark_eq (s : State) (w : WheelNo) (e : Edge) : ∃ l, takeCutMark s w e = { s with cutLines := l } := by
  unfold takeCutMark
  split
  · exact ⟨_, rfl⟩
  · exact ⟨s.cutLines, rfl⟩

/-- A step that writes one wheel seat drives nothing anew. -/
theorem commit_setWheel {s : State} (h : PinsDriven s) (w : WheelNo) (x : Wheel) :
    commit s (s.setWheel w x) = s.setWheel w x :=
  commit_of_same h rfl rfl (fun _ => rfl) rfl rfl

/-! ### The load scan -/

theorem inBand_iff (code : BitVec 10) : inBand code.toNat = true ↔ InBand code := by
  unfold inBand InBand
  simp

theorem supervise_keepsRest (s : State) (w : WheelNo) (x : Nat) : KeepsRest s (supervise s w x) := by
  unfold supervise
  simp only
  split
  · exact setWheel_keepsRest _ _ _
  · exact stopFilters_keepsRest _ _

theorem probeTest_keepsRest (s : State) (w : WheelNo) (x : Nat) : KeepsRest s (probeTest s w x) := by
  unfold probeTest
  split
  · split
    · exact endCheck_keepsRest _ _ _
    · split
      · exact endCheck_keepsRest _ _ _
      · exact setWheel_keepsRest _ _ _
  · exact KeepsRest.refl s

theorem published_keepsRest (s : State) (c : ChannelNo) : KeepsRest s (published s c) := by
  unfold published
  split
  · exact (supervise_keepsRest _ _ _).trans (probeTest_keepsRest _ _ _)
  · exact KeepsRest.refl s

/-- The scan after a code: the block has taken it and the pointer has moved on. -/
def scanned (s : State) (code : Nat) : State :=
  s.setScan { s.scan with
    pointer := nextChannel s.scan.pointer
    channels := s.scan.channels.set s.scan.pointer (s.scan.channels[s.scan.pointer].takeCode code).1 }

/-- The end of a conversion of a load channel. -/
theorem convert_load (s : State) (code : Nat) (h : s.scan.pointer ≠ 8) :
    convert code s = if (s.scan.channels[s.scan.pointer].takeCode code).2 then
      published (scanned s code) s.scan.pointer else scanned s code := by
  unfold convert
  simp only
  rw [if_neg h]
  rfl

/-- The end of a conversion of REF. -/
theorem convert_ref (s : State) (code : Nat) (h : s.scan.pointer = 8) :
    convert code s = monitor (scanned s code) code := by
  unfold convert
  simp only
  rw [if_pos h]
  have hp : ∀ u, published u s.scan.pointer = u := by intro u; rw [h]; rfl
  simp only [hp, ite_self]
  rfl

/-- Supervision at a published average, as the statements say it. -/
theorem supervise_eq {s : State} {w : WheelNo} {p : Params} (x : Nat) (hp : s.wheelParams w = some p) :
    supervise s w x = s.setWheel w (supervised s w p x) := by
  have hj : ∀ (b : Bool) (q : Prop) [Decidable q] (t : Option WatchTimer), (b = true ↔ q) →
      judge b t = if q then some (t.getD { count := 0, fires := false }) else none := by
    intro b q _ t h
    unfold judge
    by_cases hq : q
    · rw [if_pos hq, if_pos (h.2 hq)]
      cases t <;> rfl
    · rw [if_neg hq, if_neg (fun hb => hq (h.1 hb))]
  unfold supervise supervised
  simp only [hp]
  rw [hj _ (LossMet s w p x), hj _ (OverloadMet s w p x), hj _ (ContactMet s w p x)]
  all_goals
    simp only [LossMet, OverloadMet, ContactMet, Bool.and_eq_true, inService_iff, beq_iff_eq, decide_eq_true_eq,
      Bool.not_eq_true', Option.isNone_iff_eq_none]
    tauto

/-- The end of a conversion that fills the block of a load channel. -/
theorem convert_published (s : State) (code : Nat) (w : WheelNo) (h : s.scan.pointer.val = w.val)
    (hf : s.scan.channels[channelOf w].held + 1 ≥ s.scan.channels[channelOf w].count) :
    convert code s = probeTest
      (supervise (scanned s code) w ((s.scan.channels[channelOf w].sum + code) / s.scan.channels[channelOf w].count)) w
      ((s.scan.channels[channelOf w].sum + code) / s.scan.channels[channelOf w].count) := by
  have hc : s.scan.pointer = channelOf w := Fin.ext h
  have h8 : s.scan.pointer ≠ 8 := by
    intro h8
    have := w.isLt
    rw [h8] at h
    have : (8 : ChannelNo).val = 8 := rfl
    omega
  have ht : (s.scan.channels[channelOf w]).takeCode code
      = ({ s.scan.channels[channelOf w] with
            sum := 0, held := 0, fresh := true
            average := (s.scan.channels[channelOf w].sum + code) / s.scan.channels[channelOf w].count }, true) := by
    unfold Channel.takeCode
    rw [if_pos hf]
  have hw : wheelOfChannel (channelOf w) = some w := by
    clear * -
    revert w
    decide
  have ha : (scanned s code).scan.channels[channelOf w].average
      = (s.scan.channels[channelOf w].sum + code) / s.scan.channels[channelOf w].count := by
    unfold scanned
    simp only [hc, ht]
    simp [State.setScan]
  have hp : published (scanned s code) s.scan.pointer = published (scanned s code) (channelOf w) := by rw [hc]
  have hf' : (s.scan.channels[s.scan.pointer].takeCode code).2 = true := by simp only [hc, ht]
  rw [convert_load s code h8, if_pos hf', hp]
  unfold published
  rw [hw]
  simp only [ha]

/-- The steps of an entry to sense fault leave everything but wheel seats and notices as it is. -/
theorem enterFault_keepsRest (s : State) :
    KeepsRest ((s.setScan { s.scan with run := 0, fault := true }).raiseSense) (enterFault s) := by
  have : ∀ (l : List WheelNo) (u : State), KeepsRest u (l.foldl (fun s w => abortCheck (stopFilters s w) w) u) := by
    intro l
    induction l with
    | nil => intro u; exact KeepsRest.refl u
    | cons a l ih => intro u; exact ((stopFilters_keepsRest u a).trans (abortCheck_keepsRest _ _)).trans (ih _)
  exact this (List.finRange 8) _

end Sys2Proof.Laws
end

