-- ==== Sys2Proof/Laws/Frames.lean ====
section
/-! SUPPORT. Frames: their moments, addressing, the bytes of a frame from its bits and back, what is shifted out, and the
end of a step that takes a frame. -/

namespace Sys2Proof.Laws

open Sys2Proof.Machine Sys2Proof.Safety

theorem addressed_iff (s : State) (addr : BitVec 2) (f : Frame) : s.addressed addr = some f ↔ Addressed s addr f := by
  unfold State.addressed Addressed
  cases h : s.link.frame with
  | none => simp
  | some f' =>
    simp only [Option.some.injEq]
    split <;> rename_i ha
    · constructor
      · rintro ⟨⟩
        exact ⟨rfl, ha⟩
      · rintro ⟨rfl, _⟩
        rfl
    · refine ⟨fun h => (nomatch h), ?_⟩
      rintro ⟨rfl, h⟩
      exact absurd h ha

/-- At the rise of nSEL an addressed frame is taken. -/
theorem endFrame_addressed {s : State} {addr : BitVec 2} {f : Frame} (take : Frame → State → State)
    (h : Addressed s addr f) : endFrame addr take s = take f s := by
  unfold endFrame
  rw [(addressed_iff s addr f).2 h]

/-- At the rise of nSEL any other frame is ignored. -/
theorem endFrame_ignored {s : State} {addr : BitVec 2} (take : Frame → State → State)
    (h : ∀ f, ¬ Addressed s addr f) : endFrame addr take s = passFrame s := by
  have : s.addressed addr = none := Option.eq_none_iff_forall_ne_some.2 fun f hf => h f ((addressed_iff s addr f).1 hf)
  unfold endFrame
  rw [this]

/-- The end of a step looks at nothing of the state before it that the fall of nSEL changes. -/
theorem commit_begun (s a : State) (p : Straps) : commit (begun s p) a = commit s a := rfl

/-- How a row of a frame begins, if it is a step of a frame at its moment. -/
theorem begins_of {row : FrameMoment → Instr} {s : State} {third rise : State → State} (hp : PinsDriven s)
    (hn : s.nRST = true) (h : ∀ m t, exec (row m) t = whenRunning t (atMoment m third rise)) : Begins row s := by
  intro p
  constructor
  · rw [h, whenRunning_eq hn]
    exact congrArg _ (commit_of_same hp rfl rfl (fun _ => rfl) rfl rfl)
  · rw [h, h, whenRunning_eq hn, whenRunning_eq (s := begun s p) hn, commit_begun]
    rfl

/-- An accepted frame leaves the link as the statements say. -/
theorem acceptFrame_eq (s : State) : acceptFrame s = s.setLink (heard s.link) := by
  unfold acceptFrame heard Link.feed
  cases h : s.link.hold <;> simp [h]

/-- A rejected frame leaves the link as the statements say. -/
theorem rejectFrame_eq (s : State) : rejectFrame s = s.setLink (rejected s.link) := rfl

/-- An ignored frame leaves the link as the statements say. -/
theorem passFrame_eq (s : State) : passFrame s = (s.setLink (passed s.link)).setSdo none := rfl

/-- What is shifted out, as the statements say it. -/
theorem shiftOut_eq (tail : List Bool) (bs : List Byte) : shiftOut (4 + tail.length) bs = shifted tail bs := by
  unfold shiftOut shifted
  have e : 4 + tail.length - 8 = tail.length - 4 := by omega
  simp only [e]
  rw [List.take_append]
  congr 1
  rw [List.length_take, List.take_replicate]
  congr 1
  omega

/-- What SDO carries over an addressed frame, as the statements say it. -/
theorem answered_eq (tail : List Bool) (bs : List Byte) :
    answered tail (shiftOut (4 + tail.length) bs) = sdoOver tail bs := by
  unfold answered sdoOver
  rw [shiftOut_eq]
  by_cases h : 4 ≤ tail.length
  · rw [if_pos h, if_neg (by omega)]
  · rw [if_neg h, if_pos (by omega)]

theorem lowBits_length (low : BitVec 4) : (lowBits low).length = 4 := rfl

/-- The bytes of a frame whose tail is the header's low bits and whole bytes. -/
theorem frame_bytes (addr : BitVec 2) (k1 k0 : Bool) (low : BitVec 4) (bs : List Byte) :
    bytesOf (headerBits addr k1 k0 ++ (lowBits low ++ bs.flatMap bitsOf)) = headerByte addr k1 k0 low :: bs := by
  rw [← List.append_assoc, headerBits_low]
  exact bytesOf_bits (headerByte addr k1 k0 low :: bs)

/-- A tail of a frame of whole bytes is the header's low bits and the bits of bytes. -/
theorem tail_split (tail : List Bool) (n : Nat) (h : 4 + tail.length = 8 * (n + 1)) :
    ∃ (low : BitVec 4) (bs : List Byte), tail = lowBits low ++ bs.flatMap bitsOf ∧ bs.length = n := by
  match tail, h with
  | a :: b :: c :: d :: rest, h =>
    obtain ⟨low, hl⟩ := lowBits_surjective a b c d
    have hr : rest.length = 8 * n := by simp only [List.length_cons] at h; omega
    have hb := bits_bytesOf n rest hr
    refine ⟨low, bytesOf rest, by rw [hb, hl]; rfl, ?_⟩
    have := congrArg List.length hb
    rw [flatMap_bitsOf_length] at this
    omega
  | [], h => simp at h; omega
  | [_], h => simp at h; omega
  | [_, _], h => simp at h; omega
  | [_, _, _], h => simp at h; omega

/-- The first two bytes of a frame that has clocked them. -/
theorem bytesOf_two (h b : Byte) (rest : List Bool) : bytesOf (bitsOf h ++ (bitsOf b ++ rest)) = h :: b :: bytesOf rest := by
  have one : ∀ (x : Byte) (l : List Bool), bytesOf (bitsOf x ++ l) = x :: bytesOf l := by
    intro x l
    show bits8 _ _ _ _ _ _ _ _ :: bytesOf l = _
    rw [bits8_bitsOf]
  rw [one, one]

/-- The check of the second byte of a FETCH frame, as the statements say it. -/
theorem fetchMatched_iff (crcen : Bool) (addr : BitVec 2) (tail : List Bool) :
    fetchMatched crcen addr tail = true ↔ Matched crcen addr tail := by
  have key : ∀ low b rest, fetchMatched crcen addr (lowBits low ++ bitsOf b ++ rest) = true ↔
      (crcen = true → b = crc8 [headerByte addr true false low]) := by
    intro low b rest
    unfold fetchMatched
    rw [List.append_assoc, ← List.append_assoc, headerBits_low, bytesOf_two]
    cases crcen <;> simp [headerChecked]
  constructor
  · intro h
    match tail, h with
    | a :: b :: c :: d :: b7 :: b6 :: b5 :: b4 :: b3 :: b2 :: b1 :: b0 :: rest, h =>
      obtain ⟨low, hl⟩ := lowBits_surjective a b c d
      refine ⟨low, bits8 b0 b1 b2 b3 b4 b5 b6 b7, rest, ?_⟩
      have e : a :: b :: c :: d :: b7 :: b6 :: b5 :: b4 :: b3 :: b2 :: b1 :: b0 :: rest
          = lowBits low ++ bitsOf (bits8 b0 b1 b2 b3 b4 b5 b6 b7) ++ rest := by rw [hl, bits8_get]; rfl
      rw [e] at h
      exact ⟨e, (key _ _ _).1 h⟩
    | [], h | [_], h | [_, _], h | [_, _, _], h | [_, _, _, _], h | [_, _, _, _, _], h | [_, _, _, _, _, _], h
    | [_, _, _, _, _, _, _], h | [_, _, _, _, _, _, _, _], h | [_, _, _, _, _, _, _, _, _], h
    | [_, _, _, _, _, _, _, _, _, _], h | [_, _, _, _, _, _, _, _, _, _, _], h => cases h
  · rintro ⟨low, b, rest, rfl, h⟩
    exact (key _ _ _).2 h

/-- The step of a frame that changes the link outside HOLD drives nothing anew. -/
theorem commit_setLink_setSdo {s : State} (h : PinsDriven s) (l : Link) (hl : l.hold = s.link.hold)
    (x : Option (List Bool)) : commit s ((s.setLink l).setSdo x) = (s.setLink l).setSdo x :=
  commit_of_same h hl rfl (fun _ => rfl) rfl rfl

/-- The step of a frame that changes the link outside HOLD, and leaves SDO as it is, drives nothing anew. -/
theorem commit_setLink {s : State} (h : PinsDriven s) (l : Link) (hl : l.hold = s.link.hold) :
    commit s (s.setLink l) = s.setLink l :=
  commit_of_same h hl rfl (fun _ => rfl) rfl rfl

/-- The step of an ignored frame drives nothing anew. -/
theorem commit_passFrame {s : State} (h : PinsDriven s) : commit s (passFrame s) = passFrame s :=
  commit_setLink_setSdo h (passed s.link) rfl none

/-- The third byte of a frame that is no FETCH is no event. -/
theorem thirdByte_nothing {s : State} (h : PinsDriven s) (hn : s.nRST = true) (rise : State → State) :
    whenRunning s (atMoment .thirdByte id rise) = .next s := by
  rw [whenRunning_eq hn]
  exact congrArg _ (commit_self h)

end Sys2Proof.Laws
end

