-- ==== Sys2Proof/Laws/PerInstr.lean ====
section
/-! SUPPORT. A statement for every row: a command is encoded with its own code and a number of argument bytes that the
table of R180 gives it, and a row that no COMMAND frame carries has no code. -/

namespace Sys2Proof.Laws

open Sys2Proof.Machine Sys2Proof.Safety

namespace CodeAndLength

/-- What is said of each row. -/
def Statement (i : Instr) : Prop :=
  match encodeCommand i with
  | some (code, args) =>
    i.isCommand = true ∧ codeOf i = some code.toNat ∧ (code.toNat, args.length) ∈ commandTable
  | none => i.isCommand = false ∧ codeOf i = none

theorem enrol (tool : Half) (kind presence : Byte) (m : Measures) : Statement (.enrol tool kind presence m) :=
  ⟨rfl, rfl, by simp [commandTable, encodeMeasures_length, Half.bytes]⟩

theorem edit (tool : Half) (apply presence : Byte) (m : Measures) : Statement (.edit tool apply presence m) :=
  ⟨rfl, rfl, by simp [commandTable, encodeMeasures_length, Half.bytes]⟩

theorem retire (tool : Half) : Statement (.retire tool) :=
  ⟨rfl, rfl, by simp [commandTable, Half.bytes]⟩

theorem query (tool : Half) : Statement (.query tool) :=
  ⟨rfl, rfl, by simp [commandTable, Half.bytes]⟩

theorem next (t : Half) : Statement (.next t) :=
  ⟨rfl, rfl, by simp [commandTable, Half.bytes]⟩

theorem lock (tool : Half) : Statement (.lock tool) :=
  ⟨rfl, rfl, by simp [commandTable, Half.bytes]⟩

theorem unlock (tool : Half) : Statement (.unlock tool) :=
  ⟨rfl, rfl, by simp [commandTable, Half.bytes]⟩

theorem define (a : DefineArgs) : Statement (.define a) :=
  ⟨rfl, rfl, by simp [commandTable, Half.bytes, encodeDefine]⟩

theorem link (group : Byte) (tool : Half) (index : Byte) : Statement (.link group tool index) :=
  ⟨rfl, rfl, by simp [commandTable, Half.bytes]⟩

theorem unlink (tool : Half) : Statement (.unlink tool) :=
  ⟨rfl, rfl, by simp [commandTable, Half.bytes]⟩

theorem group (group : Byte) : Statement (.group group) :=
  ⟨rfl, rfl, by simp [commandTable]⟩

theorem bind (seat group : Byte) : Statement (.bind seat group) :=
  ⟨rfl, rfl, by simp [commandTable]⟩

theorem unbind (seat : Byte) : Statement (.unbind seat) :=
  ⟨rfl, rfl, by simp [commandTable]⟩

theorem mount (seat : Byte) (tool : Half) : Statement (.mount seat tool) :=
  ⟨rfl, rfl, by simp [commandTable, Half.bytes]⟩

theorem swap (seat : Byte) : Statement (.swap seat) :=
  ⟨rfl, rfl, by simp [commandTable]⟩

theorem whereSeat (seat : Byte) : Statement (.whereSeat seat) :=
  ⟨rfl, rfl, by simp [commandTable]⟩

theorem release (seat : Byte) : Statement (.release seat) :=
  ⟨rfl, rfl, by simp [commandTable]⟩

theorem condemn (seat : Byte) : Statement (.condemn seat) :=
  ⟨rfl, rfl, by simp [commandTable]⟩

theorem check (seat : Byte) (lo hi : Half) (duration : Byte) : Statement (.check seat lo hi duration) :=
  ⟨rfl, rfl, by simp [commandTable, Half.bytes]⟩

theorem dress (seat : Byte) (infeed : Half) : Statement (.dress seat infeed) :=
  ⟨rfl, rfl, by simp [commandTable, Half.bytes]⟩

theorem readLoad (channel : Byte) : Statement (.readLoad channel) :=
  ⟨rfl, rfl, by simp [commandTable]⟩

theorem setSense (channel count : Byte) : Statement (.setSense channel count) :=
  ⟨rfl, rfl, by simp [commandTable]⟩

theorem takeNotices : Statement .takeNotices :=
  ⟨rfl, rfl, by simp [commandTable]⟩

theorem setLink (watchdog stretch : Byte) : Statement (.setLink watchdog stretch) :=
  ⟨rfl, rfl, by simp [commandTable]⟩

theorem resume : Statement .resume :=
  ⟨rfl, rfl, by simp [commandTable]⟩

theorem restart : Statement .restart :=
  ⟨rfl, rfl, by simp [commandTable]⟩

theorem ident : Statement .ident :=
  ⟨rfl, rfl, by simp [commandTable]⟩

theorem statusFrame (moment : FrameMoment) (addr : BitVec 2) (tail : List Bool) : Statement (.statusFrame moment addr tail) := ⟨rfl, rfl⟩

theorem commandFrame (moment : FrameMoment) (addr : BitVec 2) (tail : List Bool) : Statement (.commandFrame moment addr tail) := ⟨rfl, rfl⟩

theorem fetchFrame (moment : FrameMoment) (addr : BitVec 2) (tail : List Bool) : Statement (.fetchFrame moment addr tail) := ⟨rfl, rfl⟩

theorem powerOn (nRST : Bool) : Statement (.powerOn nRST) := ⟨rfl, rfl⟩

theorem nrstLow : Statement .nrstLow := ⟨rfl, rfl⟩

theorem tick (samples : Samples) : Statement (.tick samples) := ⟨rfl, rfl⟩

theorem cutRisingEdge (wheel : WheelNo) : Statement (.cutRisingEdge wheel) := ⟨rfl, rfl⟩

theorem cutFallingEdge (wheel : WheelNo) : Statement (.cutFallingEdge wheel) := ⟨rfl, rfl⟩

theorem partEnd (station : StationNo) : Statement (.partEnd station) := ⟨rfl, rfl⟩

theorem engageDelayEnd (wheel : WheelNo) : Statement (.engageDelayEnd wheel) := ⟨rfl, rfl⟩

theorem blankingTimeEnd (wheel : WheelNo) : Statement (.blankingTimeEnd wheel) := ⟨rfl, rfl⟩

theorem filterTimerFires (wheel : WheelNo) (timer : FilterKind) : Statement (.filterTimerFires wheel timer) := ⟨rfl, rfl⟩

theorem overtime (wheel : WheelNo) : Statement (.overtime wheel) := ⟨rfl, rfl⟩

theorem checkDurationEnd (wheel : WheelNo) : Statement (.checkDurationEnd wheel) := ⟨rfl, rfl⟩

theorem stretchTimerEnd (station : StationNo) : Statement (.stretchTimerEnd station) := ⟨rfl, rfl⟩

theorem watchdogExpiry : Statement .watchdogExpiry := ⟨rfl, rfl⟩

theorem conversionEnd (code : BitVec 10) : Statement (.conversionEnd code) := ⟨rfl, rfl⟩

theorem nrstHigh : Statement .nrstHigh := ⟨rfl, rfl⟩

theorem frameOfNoKind (moment : FrameMoment) (bits : NoKind) : Statement (.frameOfNoKind moment bits) := ⟨rfl, rfl⟩

end CodeAndLength

end Sys2Proof.Laws
end

