-- ==== Sys2Proof/Laws/Reports.lean ====
section
/-! SUPPORT. Reports: the lengths of their fields, the numbers their fields show, the bytes of a 32-bit count, and the
lookup of the next tool number. -/

namespace Sys2Proof.Laws

open Sys2Proof.Machine Sys2Proof.Safety

theorem byte1_length (n : Nat) : (byte1 n).length = 1 := rfl

theorem byte2_length (n : Nat) : (byte2 n).length = 2 := rfl

theorem byte3_length (n : Nat) : (byte3 n).length = 3 := rfl

theorem byte4_length (n : Nat) : (byte4 n).length = 4 := rfl

theorem fastByte_length (b : Bool) : (fastByte b).length = 1 := by unfold fastByte; split <;> rfl

theorem flatMap_byte1_length {α} (f : α → Nat) (l : List α) : (l.flatMap fun x => byte1 (f x)).length = l.length := by
  induction l with
  | nil => rfl
  | cons x xs ih => simp only [List.flatMap_cons, List.length_append, byte1_length, ih, List.length_cons]; omega

theorem flatMap_byte2_length (l : List Nat) : (l.flatMap byte2).length = 2 * l.length := by
  induction l with
  | nil => rfl
  | cons x xs ih => simp only [List.flatMap_cons, List.length_append, byte2_length, ih, List.length_cons]; omega

/-- The four bytes of a count, most significant first. -/
theorem byte4_eq (m : BitVec 32) : byte4 m.toNat = [m.extractLsb' 24 8, m.extractLsb' 16 8, m.extractLsb' 8 8, m.extractLsb' 0 8] := by
  unfold byte4
  simp only [List.cons.injEq, and_true]
  refine ⟨?_, ?_, ?_, ?_⟩ <;> apply BitVec.eq_of_toNat_eq <;> simp [BitVec.extractLsb'_toNat, Nat.shiftRight_eq_div_pow]

/-! ### Fields of a report -/

/-- A field past the end of the bytes before it. -/
theorem fieldAt_append (a b : List Byte) (k width : Nat) : fieldAt (a ++ b) (a.length + k) width = fieldAt b k width := by
  unfold fieldAt
  rw [List.drop_append, List.drop_eq_nil_of_le (by omega), List.nil_append, Nat.add_sub_cancel_left]

theorem shows_append {a b : List Byte} {k width n : Nat} (h : Shows b k width n) : Shows (a ++ b) (a.length + k) width n := by
  unfold Shows
  rw [fieldAt_append]
  exact h

/-- A field of one byte. -/
theorem fieldAt_byte1 (n : Nat) (rest : List Byte) : fieldAt (byte1 n ++ rest) 0 1 = n % 256 := by
  simp [fieldAt, byte1]

theorem shows_byte1 (n : Nat) (rest : List Byte) : Shows (byte1 n ++ rest) 0 1 n := by
  intro h
  rw [fieldAt_byte1]
  omega

/-- A field of two bytes. -/
theorem shows_byte2 (n : Nat) (rest : List Byte) : Shows (byte2 n ++ rest) 0 2 n := by
  intro h
  simp [fieldAt, byte2]
  omega

/-- A field of three bytes. -/
theorem shows_byte3 (n : Nat) (rest : List Byte) : Shows (byte3 n ++ rest) 0 3 n := by
  intro h
  simp [fieldAt, byte3]
  omega

/-- The fields of a list of two-byte numbers. -/
theorem shows_byte2s (l : List Nat) (i n : Nat) (h : l[i]? = some n) (rest : List Byte) :
    Shows (l.flatMap byte2 ++ rest) (2 * i) 2 n := by
  induction l generalizing i with
  | nil => cases h
  | cons x xs ih =>
    rw [List.flatMap_cons, List.append_assoc]
    cases i with
    | zero => cases h; exact shows_byte2 _ _
    | succ i =>
      have := shows_append (a := byte2 x) (ih i h)
      rwa [show (byte2 x).length + 2 * i = 2 * (i + 1) by rw [byte2_length]; omega] at this

/-- The fields of a list of seat numbers. -/
theorem fieldAt_seats (l : List SeatNo) (i : Nat) (q : SeatNo) (h : l[i]? = some q) :
    fieldAt (l.flatMap fun q => byte1 q.val) i 1 = q.val := by
  induction l generalizing i with
  | nil => cases h
  | cons x xs ih =>
    rw [List.flatMap_cons]
    cases i with
    | zero => cases h; rw [fieldAt_byte1]; omega
    | succ i =>
      have := fieldAt_append (byte1 x.val) (xs.flatMap fun q => byte1 q.val) i 1
      rw [show (byte1 x.val).length + i = i + 1 by rw [byte1_length]; omega] at this
      rw [this]
      exact ih i h

/-- The bits of a byte made of bits. -/
theorem bits8_bit (b0 b1 b2 b3 b4 b5 b6 b7 : Bool) :
    ∀ i, i < 8 → (bits8 b0 b1 b2 b3 b4 b5 b6 b7).getLsbD i = [b0, b1, b2, b3, b4, b5, b6, b7].getD i false := by
  revert b0 b1 b2 b3 b4 b5 b6 b7
  decide

/-- A byte made of bits shows them. -/
theorem shows_bits8 {data : List Byte} {k : Nat} {b0 b1 b2 b3 b4 b5 b6 b7 : Bool}
    (h : data[k]? = some (bits8 b0 b1 b2 b3 b4 b5 b6 b7)) : ShowsBits data k [b0, b1, b2, b3, b4, b5, b6, b7] :=
  ⟨_, h, bits8_bit b0 b1 b2 b3 b4 b5 b6 b7⟩

/-! ### Lookup -/

/-- The record of the least tool number above a given one. -/
theorem find_least {l : List ToolRecord} (t : Nat) (hp : (l.map (·.number)).Pairwise (· < ·)) {r : ToolRecord} (hr : r ∈ l)
   (ht : t < r.number) (hm : ∀ x ∈ l, t < x.number → r.number ≤ x.number) :
   l.find? (fun r => decide (t < r.number)) = some r := by
  induction l with
  | nil => cases hr
  | cons x xs ih =>
    simp only [List.map_cons, List.pairwise_cons, List.mem_map, forall_exists_index, and_imp,
      forall_apply_eq_imp_iff₂] at hp
    rw [List.find?_cons]
    rcases List.mem_cons.1 hr with rfl | hr'
    · simp [ht]
    · have hlt := hp.1 r hr'
      have : ¬ t < x.number := by
        intro h
        have := hm x (List.mem_cons_self) h
        omega
      simp only [this, decide_false]
      exact ih hp.2 hr' (fun x hx => hm x (List.mem_cons_of_mem _ hx))

end Sys2Proof.Laws
end

