-- ==== Sys2Proof/Tests/Slice0.lean ====
section
/-! SUPPORT. Tests: ill-formed commands, single steps checked against the examples of the spec, and for every statement a
state and operands that meet its hypotheses together. A hypothesis that only names a term (`u = …`) is met by that term. -/

namespace Sys2Proof.Tests

open Sys2Proof.Machine Sys2Proof.Safety Sys2Proof.Laws

/-! ### A small world -/

/-- The state after one step that runs the command; the state itself where the step has another outcome. -/
def after (i : Instr) (s : State) : State :=
  match exec i s with
  | .next t => t
  | .fault _ => s
  | .refused _ => s

/-- The reply stored, if one is. -/
def replyOf (s : State) : Option Reply :=
  match s.link.buffer with
  | .stored r => some r
  | .empty | .pending _ => none

/-- The code of the reply stored, if one is. -/
def codeOfReply (s : State) : Option ReplyCode := (replyOf s).map (·.code)

def zeroMeasures : Measures :=
  { partsUsed := 0, partsLimit := 0, wearUsed := 0, wearLimit := 0, dressUsed := 0, dressLimit := 0, stockNow := 0,
    stockFloor := 0 }

def zeroDefine : DefineArgs :=
  { group := 0, kind := 0, policy := 0, nominalLoad := 0, warnMargin := 0, rollWear := 0, lossFloor := 0,
    overloadCeiling := 0, contactLevel := 0, engageDelay := 0, blankingTime := 0, filterTime := 0, fast := 0,
    maxCutTime := 0 }

def params : Params :=
  { policy := .priority, nominalLoad := 100, warnMargin := 10, rollWear := 2, lossFloor := 50, overloadCeiling := 900,
    contactLevel := 200, engageDelay := 5, blankingTime := 3, filterTime := 20, fast := false, maxCutTime := 10 }

/-- A wheel group with the members given. -/
def wheels (members : List Nat) : Group :=
  { kind := .wheel, params := params, members := members, cursor := none, queue := [] }

/-- A dresser group with the members given. -/
def rolls (members : List Nat) : Group := { wheels members with kind := .dresser }

/-- A wheel record of group 0 with a limit of 10 parts, in a state and at a seat. -/
def tool (n : Nat) (v : RecState) (q : Option SeatNo) : ToolRecord :=
  { number := n, kind := .wheel, state := v, group := some 0, seat := q
    partsUsed := 0, partsLimit := some 10, wearUsed := 0, wearLimit := none, wearCarry := 0
    dressUsed := 0, dressLimit := none, stockNow := 500, stockStart := 500, stockFloor := some 100
    warned := false, ended := EndedSet.empty, cause := none }

/-- The record with its measure PARTS ended. -/
def worn10 (r : ToolRecord) : ToolRecord :=
  { r with partsUsed := 10, ended := { EndedSet.empty with parts := true } }

/-- A roll of group 1. -/
def roll (n : Nat) (v : RecState) (q : Option SeatNo) : ToolRecord :=
  { tool n v q with kind := .dresser, group := some 1 }

/-- The reset state with records, groups and bound seats. -/
def world (table : List ToolRecord) (groups : List (GroupNo × Group)) (seats : List (SeatNo × Service × GroupNo)) : State :=
  { State.reset with
    table := table
    groups := groups.foldl (fun v p => v.set p.1 (some p.2)) State.reset.groups
    seats := seats.foldl (fun v p => v.set p.1 { service := p.2.1, group := some p.2.2 }) State.reset.seats }

/-- Seat 0 RUNNING tool 5 of group 0, with tools 6 AVAILABLE, 7 SPENT and 8 HELD in the group. -/
def running : State :=
  world [tool 5 .active (some 0), tool 6 .available none, worn10 (tool 7 .spent none), tool 8 .held none]
    [(0, wheels [5, 6, 7, 8])] [(0, .running, 0)]

/-- Seat 0 CHANGING with tool 5 chosen, tool 6 AVAILABLE beside it. -/
def changing : State :=
  world [tool 5 .chosen (some 0), tool 6 .available none] [(0, wheels [5, 6])] [(0, .changing, 0)]

/-- Seat 0 WAITING at the head of the queue of group 0, tool 5 HELD. -/
def waiting : State :=
  world [tool 5 .held none] [(0, { wheels [5] with queue := [0] })] [(0, .waiting, 0)]

/-- Seat 0 HALTED with tool 5 SUSPECT. -/
def halted : State :=
  world [{ tool 5 .suspect (some 0) with cause := some .loss }] [(0, wheels [5])] [(0, .halted, 0)]

/-- Seat 0 RUNNING tool 5 and its dresser seat 2 RUNNING roll 20. -/
def withRoll : State :=
  world [tool 5 .active (some 0), roll 20 .active (some 2)] [(0, wheels [5]), (1, rolls [20])]
    [(0, .running, 0), (2, .running, 1)]

/-- A part is open at station 0. -/
def opened (s : State) : State := s.setStation 0 { s.stations[0] with partOpen := true }

/-- Wheel seat 0 as given. -/
def atWheel (s : State) (f : Wheel → Wheel) : State := s.setWheel 0 (f s.wheels[0])

/-- A cut open at wheel seat 0, of an accumulated load of 12,345. -/
def cutting (s : State) : State :=
  atWheel s fun x => { x with
    phase := .cut, cutBlanking := 30, cutSeen := true, accumulator := 12345, cutTimer := some { count := 0, fires := false } }

/-- Seat 0 DUE with its tool ended, a part open. -/
def due : State :=
  opened (world [worn10 (tool 5 .active (some 0)), tool 6 .available none] [(0, wheels [5, 6])] [(0, .due, 0)])

/-! ### Ill-formed commands -/

theorem test_illformed_tool_numbers :
    (Instr.enrol 0 1 0 zeroMeasures).wf = false ∧ (Instr.edit 0xFFFF 0 0 zeroMeasures).wf = false
      ∧ (Instr.retire 0).wf = false ∧ (Instr.query 0xFFFF).wf = false ∧ (Instr.lock 0).wf = false
      ∧ (Instr.unlock 0xFFFF).wf = false ∧ (Instr.link 0 0 0).wf = false ∧ (Instr.unlink 0).wf = false
      ∧ (Instr.mount 0 0xFFFF).wf = false := by decide

theorem test_illformed_seats :
    (Instr.bind 16 0).wf = false ∧ (Instr.unbind 16).wf = false ∧ (Instr.mount 16 1).wf = false
      ∧ (Instr.swap 16).wf = false ∧ (Instr.whereSeat 16).wf = false ∧ (Instr.release 16).wf = false
      ∧ (Instr.condemn 255).wf = false ∧ (Instr.check 16 0 0 0).wf = false ∧ (Instr.dress 16 0).wf = false := by decide

theorem test_illformed_groups :
    (Instr.define { zeroDefine with group := 32 }).wf = false ∧ (Instr.link 32 1 0).wf = false
      ∧ (Instr.group 32).wf = false ∧ (Instr.bind 0 32).wf = false := by decide

theorem test_illformed_channels : (Instr.readLoad 9).wf = false ∧ (Instr.setSense 9 1).wf = false := by decide

theorem test_illformed_kinds :
    (Instr.enrol 1 0 0 zeroMeasures).wf = false ∧ (Instr.enrol 1 3 0 zeroMeasures).wf = false
      ∧ (Instr.define { zeroDefine with kind := 3 }).wf = false
      ∧ (Instr.define { zeroDefine with policy := 2 }).wf = false := by decide

theorem test_illformed_check :
    (Instr.check 2 0 0 0).wf = false ∧ (Instr.check 0 5 4 0).wf = false ∧ (Instr.check 0 2000 1023 0).wf = true := by
  decide

theorem test_illformed_is_refused :
    codeOfReply (after (.retire 0) State.reset) = some .badArg
      ∧ codeOfReply (after (.check 2 0 0 0) State.reset) = some .badArg := by decide

/-! ### Byte layouts -/

theorem test_check_bytes :
    crc8 [0x00] = 0x00 ∧ crc8 [0x40] = 0xC7 ∧ crc8 [0xA0] = 0x69 ∧ crc8 [0x90, 0x60] = 0xC6 := by decide

theorem test_decode_mount : decodeCommand 0x32 [0x04, 0x00, 0x0C] = some (.mount 4 12) := by decide

theorem test_decode_refuses : decodeCommand 0x32 [0x04, 0x00] = none ∧ decodeCommand 0x65 [] = none := by decide

theorem test_no_table_word : decodeTableWord 8 0 = none ∧ State.reset.withFetchWord 8 0 = State.reset := by decide

/-! ### Single steps -/

theorem test_enrol :
    (after (.enrol 7 1 1 { zeroMeasures with partsUsed := 3, partsLimit := 3 }) State.reset).find 7
      = some { tool 7 .spent none with
          group := none, partsUsed := 3, partsLimit := some 3, stockNow := 0, stockStart := 0, stockFloor := none
          ended := { EndedSet.empty with parts := true } } := by decide

theorem test_edit_ends_running :
    (after (.edit 5 1 0 { zeroMeasures with partsUsed := 10 }) (opened running)).seats[0].service = .due
      ∧ (after (.edit 5 1 0 { zeroMeasures with partsUsed := 10 }) running).find 6
        = some (tool 6 .chosen (some 0)) := by decide

theorem test_retire : (after (.retire 7) running).find 7 = none
    ∧ (after (.retire 7) running).groups[0] = some (wheels [5, 6, 8]) := by decide

theorem test_query : replyOf (after (.query 6) running) = some { code := .done, data := toolReport (tool 6 .available none) } := by
  decide

theorem test_next : replyOf (after (.next 5) running) = some { code := .done, data := toolReport (tool 6 .available none) }
    ∧ codeOfReply (after (.next 8) running) = some .endOfTable := by decide

theorem test_lock_chosen : (after (.lock 5) changing).find 5 = some (tool 5 .held none)
    ∧ (after (.lock 5) changing).find 6 = some (tool 6 .chosen (some 0)) := by decide

theorem test_unlock_serves : (after (.unlock 5) waiting).find 5 = some (tool 5 .chosen (some 0))
    ∧ (after (.unlock 5) waiting).seats[0].service = .changing := by decide

theorem test_define :
    (after (.define { zeroDefine with group := 31, kind := 1, policy := 1, lossFloor := 2000, filterTime := 2000 })
        State.reset).groups[31]
      = some { kind := .wheel, members := [], cursor := none, queue := [], params :=
          { policy := .rotate, nominalLoad := 1, warnMargin := 1, rollWear := 0, lossFloor := 1023, overloadCeiling := 0,
            contactLevel := 0, engageDelay := 0, blankingTime := 0, filterTime := 1000, fast := false,
            maxCutTime := 0 } } := by decide

theorem test_link :
    ((after (.link 0 9 1) (world [{ tool 9 .held none with group := none, wearCarry := 100 }] [(0, wheels [5, 6])] [])).groups[0].map
        (·.members)) = some [5, 9, 6]
      ∧ ((after (.link 0 9 1) (world [{ tool 9 .held none with group := none, wearCarry := 100 }] [(0, wheels [5, 6])]
        [])).find 9).map (·.wearCarry) = some 99 := by decide

theorem test_unlink : (after (.unlink 8) running).groups[0] = some (wheels [5, 6, 7])
    ∧ ((after (.unlink 8) running).find 8).map (·.group) = some none := by decide

theorem test_group : ((replyOf (after (.group 0) running)).map fun r => r.data.length) = some 32
    ∧ codeOfReply (after (.group 1) running) = some .noGroup := by decide

theorem test_bind_selects :
    (after (.bind 1 0) running).seats[1] = { service := .changing, group := some 0 }
      ∧ (after (.bind 1 0) running).find 6 = some (tool 6 .chosen (some 1)) := by decide

theorem test_unbind : (after (.unbind 0) running).seats[0] = { service := .unbound, group := none }
    ∧ (after (.unbind 0) running).find 5 = some (tool 5 .available none) := by decide

theorem test_mount : (after (.mount 0 5) changing).seats[0].service = .running
    ∧ (after (.mount 0 5) changing).pins.permit[0] = true := by decide

theorem test_mount_alternative : (after (.mount 0 6) changing).find 6 = some (tool 6 .active (some 0))
    ∧ (after (.mount 0 6) changing).find 5 = some (tool 5 .available none) := by decide

theorem test_swap : (after (.swap 0) running).find 6 = some (tool 6 .chosen (some 0))
    ∧ (after (.swap 0) running).find 5 = some (tool 5 .available none) := by decide

theorem test_where : (replyOf (after (.whereSeat 0) running)).map (·.data)
    = some [0, 3, 0, 0, 0, 5, 0, 0] := by decide

theorem test_release : (after (.release 0) halted).find 5 = some (tool 5 .active (some 0))
    ∧ (after (.release 0) halted).seats[0].service = .running := by decide

theorem test_condemn :
    (after (.condemn 0) halted).find 5 = some { tool 5 .broken none with cause := some .loss }
      ∧ (after (.condemn 0) halted).seats[0].service = .waiting := by decide

theorem test_check : (after (.check 0 100 2000 0) running).wheels[0].check
    = some { lo := 100, hi := 1023, steps := 1, count := 0, tested := false } := by decide

theorem test_dress :
    ((after (.dress 0 3000) (world [{ tool 5 .active (some 0) with stockNow := 2100, stockStart := 2100 }]
        [(0, wheels [5])] [(0, .running, 0)])).table.map fun r => (r.stockNow, r.dressUsed, r.ended.stock)) = [(100, 1, true)]
      ∧ codeOfReply (after (.dress 0 1) withRoll) = some .done
      ∧ ((after (.dress 0 1) withRoll).table.map (·.stockNow)) = [499, 498] := by decide

theorem test_readLoad :
    replyOf (after (.readLoad 8) State.reset) = some { code := .done, data := [8, 0, 0, 0, 8] } := by decide

theorem test_setSense : ((after (.setSense 0 255) State.reset).scan.channels[0]).count = 128
    ∧ ((after (.setSense 0 100) State.reset).scan.channels[0]).count = 64 := by decide

theorem test_takeNotices :
    (replyOf (after .takeNotices State.reset)).map (·.data)
        = some [0, 0, 0, 0, 0, 0, 0, 0, 0, 0, 0, 0, 0, 0, 0, 0, 1]
      ∧ (after .takeNotices State.reset).pins.nATTN = true := by decide

theorem test_setLink : (after (.setLink 9 9) State.reset).link.watchdog = some 0
    ∧ (after (.setLink 9 9) State.reset).notices.stretch = .ms4000 := by decide

theorem test_resume :
    (after .resume (State.reset.setLink { State.reset.link with hold := true, period := .ms50 })).link
      = { State.reset.link with period := .ms50, watchdog := some 0, buffer := .stored done } := by decide

theorem test_restart : (after .restart running).table = [] ∧ (after .restart running).link.cause = .restart := by decide

theorem test_ident : (replyOf (after .ident State.reset)).map (·.data)
    = some [0x4E, 0x5A, 0x17, 0xE8, 1, 128, 32, 16, 1, 0, 0, 0, 0, 0, 1] := by decide

/-- Straps of the tests: address 0, CRCEN as given. -/
def straps (crcen : Bool) : Straps := { strap := 0, crcen := crcen }

/-- The bits of a frame after its kind: the header's low bits as zeros, then bytes. -/
def tailOf (bytes : List Byte) : List Bool := lowBits 0 ++ bytes.flatMap bitsOf

/-- A frame that no other event falls into. -/
def whole (crcen : Bool) : FrameMoment := .whole (straps crcen)

theorem test_statusFrame : (after (.statusFrame (whole false) 0 (tailOf [0])) State.reset).pins.sdo
      = some (bitsOf 0x80)
    ∧ (after (.statusFrame (whole false) 0 (tailOf [0, 0])) State.reset).link.linkErr = true := by decide

theorem test_commandFrame :
    (after (.commandFrame (whole false) 0 (tailOf [0x60])) State.reset).link.buffer = .pending .takeNotices
      ∧ (after (.commandFrame (whole true) 0 (tailOf [0x60, 0])) State.reset).link.linkErr = true := by decide

theorem test_fetchFrame :
    (after (.fetchFrame (whole false) 0 (tailOf [0, 0, 0])) (after (.query 1) State.reset)).pins.sdo
      = some ([0xC0, 0x01, 0x10].flatMap bitsOf) := by decide

theorem test_frameOfNoKind :
    (after (.frameOfNoKind (whole false) (.twoClocks 0)) State.reset).link.linkErr = true
      ∧ (after (.frameOfNoKind (whole false) (.twoClocks 0)) State.reset).pins.sdo = none
      ∧ (after (.frameOfNoKind (whole false) (.twoClocks 1)) State.reset).link.linkErr = false := by decide

/-- RESUME is BUSY, and a FETCH of three bytes has begun. -/
def fetching : State :=
  after (.fetchFrame (.fall (straps false)) 0 (tailOf [0, 0]))
    (after (.commandFrame (whole false) 0 (tailOf [0x62])) State.reset)

/-- RESUME completes inside a FETCH, after its fall: the status byte shows BUSY. The reply comes out if the completion is
taken before the third byte begins, and L = 0 if it is taken after (R172). -/
theorem test_completion_inside_fetch :
    (after (.fetchFrame .rise 0 (tailOf [0, 0])) (after .resume fetching)).pins.sdo = some ([0xA0, 0x01].flatMap bitsOf)
      ∧ (after (.fetchFrame .rise 0 (tailOf [0, 0])) (after .resume
          (after (.fetchFrame .thirdByte 0 (tailOf [0, 0])) fetching))).pins.sdo = some ([0xA0, 0x00].flatMap bitsOf) := by
  decide

/-- A COMMAND whose rise finds the prior command completed is accepted, and its status byte shows BUSY (R164, R167). -/
theorem test_completion_inside_command :
    (let t := after (.commandFrame .rise 0 (tailOf [0x60])) (after .resume fetching);
      t.link.buffer = .pending .takeNotices ∧ t.pins.sdo = some (bitsOf 0xA0)) := by decide

/-- A frame in progress when a reset begins is abandoned (R162, R178). -/
theorem test_frame_abandoned :
    (let t := after (.commandFrame .rise 0 (tailOf [0x60])) (after .nrstHigh (after .nrstLow fetching));
      t.link.buffer = .empty ∧ t.link.linkErr = false ∧ t.pins.sdo = none ∧ t.link.frame = none) := by decide

theorem test_powerOn : (after (.powerOn false) running).nRST = false ∧ (after (.powerOn true) running).table = [] := by decide

theorem test_nrst : (after .nrstLow running).link.cause = .pin ∧ (after .nrstLow running).nRST = false
    ∧ (after .nrstHigh (after .nrstLow running)).link.cause = .pin := by decide

/-- All twelve inputs low. -/
def quiet : Samples := { cut := Vector.replicate 8 false, pend := Vector.replicate 4 false }

theorem test_tick :
    (after (.tick quiet) (cutting running)).wheels[0].accumulator = 12345
      ∧ (after (.tick quiet) ((cutting running).setScan { State.reset.scan with fault := true })).wheels[0].accumulator
        = 12445 := by decide

theorem test_cutRisingEdge : (after (.cutRisingEdge 0) running).wheels[0].phaseTimer = some { count := 0, time := 50 }
    ∧ (after (.cutRisingEdge 1) running).notices.seats[1].foreign = true := by decide

theorem test_cutFallingEdge :
    ((after (.cutFallingEdge 0) (opened (cutting running))).find 5).map (fun r => (r.wearUsed, r.wearCarry)) = some (123, 45)
      ∧ (after (.cutFallingEdge 0) (opened (cutting running))).wheels[0].phaseTimer = some { count := 0, time := 30 } := by decide

theorem test_partEnd :
    ((after (.partEnd 0) (atWheel (opened running) fun x => { x with cutSeen := true })).find 5).map (·.partsUsed) = some 1
      ∧ (after (.partEnd 0) due).find 6 = some (tool 6 .chosen (some 0)) := by decide

theorem test_engageDelayEnd :
    (after (.engageDelayEnd 0) (atWheel running fun x => { x with
      phase := .engage, phaseTimer := some { count := 50, time := 50 } })).wheels[0].phase = .cut := by decide

theorem test_blankingTimeEnd :
    (after (.blankingTimeEnd 0) (atWheel running fun x => { x with
      phase := .settle, phaseTimer := some { count := 30, time := 30 } })).wheels[0].phase = .idle := by decide

theorem test_filterTimerFires :
    (after (.filterTimerFires 0 .contact) (atWheel running fun x => { x with
      contact := some { count := 20, fires := true } })).find 5
      = some { tool 5 .suspect (some 0) with cause := some .contact } := by decide

theorem test_overtime :
    (after (.overtime 0) (atWheel (cutting running) fun x => { x with
      cutTimer := some { count := 1000, fires := true } })).seats[0].service = .halted := by decide

theorem test_checkDurationEnd :
    (after (.checkDurationEnd 0) (atWheel running fun x => { x with
      check := some { lo := 0, hi := 9, steps := 1, count := 10, tested := false } })).wheels[0].lastResult
      = .noData := by decide

theorem test_stretchTimerEnd :
    (after (.stretchTimerEnd 0) (running.setStation 0 { partOpen := false, stretch := some { count := 1000, time := 1000 } })).pins.lamp[0]
      = false := by decide

theorem test_watchdogExpiry :
    (after .watchdogExpiry (running.setLink { running.link with period := .ms50, watchdog := some 50 })).pins.lamp[3]
      = true := by decide

theorem test_conversionEnd :
    ((after (.conversionEnd 400) (State.reset.setChannel 0 { Channel.reset with held := 7, sum := 2800 })).scan.channels[0])
      = { Channel.reset with average := 400, fresh := true } := by decide

/-! ### States and operands that meet the hypotheses of the statements, in the statements' order -/

theorem driven_reset : PinsDriven State.reset := by
  refine ⟨?_, ?_, ?_⟩ <;> decide

/-- A part whose outputs follow: what they depend on is as after a reset. -/
theorem driven_of_reset {s : State} (hp : s.pins = State.reset.pins) (hl : s.link.hold = State.reset.link.hold)
    (hs : s.seats = State.reset.seats) (hst : s.stations = State.reset.stations)
    (hn : s.notices = State.reset.notices) : PinsDriven s := by
  obtain ⟨h1, h2, h3⟩ := driven_reset
  refine ⟨?_, ?_, ?_⟩
  · unfold Bound at h1 ⊢; rw [hp, hl, hs]; exact h1
  · rw [hp, hl, hs, hst]; exact h2
  · rw [hp, hn]; exact h3

/-- The reset state with one command in its queue. -/
def queued (i : Instr) : State := { State.reset with pending := [i] }

theorem wit_StepRunsFrontCommand : (queued .takeNotices).pending = [.takeNotices] := rfl

theorem wit_NamedWritesTouchOneItem :
    (running.find 5).isSome = true ∧ running.find 9 = none ∧ TableOrdered running
      ∧ (∃ p q : SeatNo, p ≠ q) ∧ (running.find 8).isSome = true := by decide

theorem wit_StepEndDrivesOutputs :
    (¬ Lit State.reset 0 ∧ Lit waiting 0) ∧ (Lit waiting 0 ∨ ¬ Lit waiting 0) ∧ ¬ Lit State.reset 3 := by decide

theorem wit_EveryStepDrivesOutputs :
    PinsDriven (queued .takeNotices) ∧ ∃ t, step (queued .takeNotices) = .next t :=
  ⟨driven_of_reset rfl rfl rfl rfl rfl, _, rfl⟩

theorem wit_ResetsActAlike :
    State.reset.nRST = true ∧ Ready State.reset .restart ∧ (after .nrstLow State.reset).nRST = false := by decide

theorem wit_HeldInResetNothingActs :
    (after .nrstLow State.reset).nRST = false ∧ (∀ n, Instr.takeNotices ≠ .powerOn n) ∧ Instr.takeNotices ≠ .nrstHigh := by
  decide

theorem wit_CodesNameTheCommands :
    decodeCommand 0x10 (List.replicate 24 0) = some (.enrol 0 0 0 zeroMeasures)
      ∧ decodeCommand 0x64 [] = some .ident := by decide

theorem wit_CommandBytesRoundTrip :
    (Instr.enrol 0 0 0 zeroMeasures).isCommand = true ∧ Instr.ident.isCommand = true
      ∧ decodeCommand 0x51 [8, 255] = some (.setSense 8 255) := by decide

theorem wit_IllFormedCommandRefused :
    (Instr.retire 0).isCommand = true ∧ (Instr.retire 0).wf = false ∧ Ready State.reset (.retire 0) := by decide

theorem wit_RefusedCommandChangesNothing :
    PinsDriven State.reset ∧ (Instr.query 7).isCommand = true
      ∧ exec (.query 7) State.reset = .next (after (.query 7) State.reset)
      ∧ Stored (after (.query 7) State.reset) { code := .unknownTool, data := [] }
      ∧ ReplyCode.unknownTool.isRefusal = true :=
  ⟨driven_reset, rfl, rfl, rfl, rfl⟩

/-- The greatest and the first too great of the numbers of two bytes, and a reply that is not DONE. -/
theorem wit_ToolGroupAndSeatReportsShowFields :
    (65535 < 256 ^ 2 ∧ ¬ 65536 < 256 ^ 2) ∧ (wheels [5]).members[0]? = some 5 ∧ (0 : SeatNo) = seatOfWheel 0
      ∧ State.reset.holder 0 = none ∧ (3 : SeatNo).val % 4 ≥ 2 ∧ (Instr.next 0).isCommand = true
      ∧ Ready State.reset (.next 0)
      ∧ exec (.next 0) State.reset = .next (after (.next 0) State.reset)
      ∧ Stored (after (.next 0) State.reset) { code := .endOfTable, data := [] } ∧ ReplyCode.endOfTable ≠ .done :=
  ⟨by decide, rfl, rfl, rfl, by decide, rfl, by decide, rfl, rfl, by decide⟩

/-- Tool numbers 1 and 65,534, and a table of 127 records, are at the bounds of the hypotheses. -/
theorem wit_EnrolInsertsTheRecord :
    Ready State.reset (.enrol 0xFFFE 2 0 zeroMeasures) ∧ (0xFFFE : Half) ≠ 0 ∧ (0xFFFE : Half) ≠ 0xFFFF
      ∧ ((2 : Byte) = 1 ∧ Kind.dresser = .wheel ∨ (2 : Byte) = 2 ∧ Kind.dresser = .dresser)
      ∧ State.reset.find (0xFFFE : Half).toNat = none ∧ State.reset.table.length < 128 := by decide

theorem wit_EnrolInsertsTheRecord_last_place : (List.replicate 127 (tool 1 .held none)).length < 128 := by
  rw [List.length_replicate]; decide

theorem wit_EnrolAndEditChecks_full_table : (List.replicate 128 (tool 1 .held none)).length ≥ 128 := by
  rw [List.length_replicate]

theorem wit_EnrolAndEditChecks :
    Ready running (.enrol 0 1 0 zeroMeasures) ∧ (0 : Half) = 0
      ∧ (running.find (5 : Half).toNat).isSome = true
      ∧ Ready running (.edit 9 0 0 zeroMeasures) ∧ running.find (9 : Half).toNat = none
      ∧ (world [tool 5 .broken none] [] []).find (5 : Half).toNat = some (tool 5 .broken none) := by decide

/-- Presence bits that write a parts limit of 10, and an apply mask that writes parts used. -/
theorem wit_EditOfUnmountedRecord :
    Ready running (.edit 6 1 0 zeroMeasures) ∧ running.find (6 : Half).toNat = some (tool 6 .available none)
      ∧ running.find (7 : Half).toNat = some (worn10 (tool 7 .spent none))
      ∧ HasEnd (worn10 (tool 7 .spent none))
      ∧ ¬ HasEnd (judged (some 10) (edited 1 0 zeroMeasures (worn10 (tool 7 .spent none))))
      ∧ running.find (8 : Half).toNat = some (tool 8 .held none)
      ∧ changing.find (5 : Half).toNat = some (tool 5 .chosen (some 0))
      ∧ NewEnd (tool 5 .chosen (some 0))
          (judged (some 10) (edited 1 0 { zeroMeasures with partsUsed := 10 } (tool 5 .chosen (some 0))))
      ∧ ¬ NewEnd (tool 5 .chosen (some 0))
          (judged (some 10) (edited 1 0 { zeroMeasures with partsUsed := 9 } (tool 5 .chosen (some 0)))) := by decide

theorem wit_EditOfMountedRecord :
    Ready running (.edit 5 1 0 zeroMeasures) ∧ running.find (5 : Half).toNat = some (tool 5 .active (some 0))
      ∧ running.seats[0].service = .running ∧ running.stations[stationOf 0].partOpen = false
      ∧ (opened running).stations[stationOf 0].partOpen = true
      ∧ NewEnd (tool 5 .active (some 0))
          (judged (some 10) (edited 1 0 { zeroMeasures with partsUsed := 10 } (tool 5 .active (some 0))))
      ∧ due.find (5 : Half).toNat = some (worn10 (tool 5 .active (some 0))) ∧ due.seats[0].service = .due
      ∧ HasEnd (worn10 (tool 5 .active (some 0)))
      ∧ ¬ HasEnd (judged (some 10) (edited 1 0 zeroMeasures (worn10 (tool 5 .active (some 0)))))
      ∧ halted.find (5 : Half).toNat = some { tool 5 .suspect (some 0) with cause := some .loss } := by decide

/-- The new end of the DUE case is a second measure that ends: STOCK, beside PARTS. -/
theorem wit_EditOfMountedRecord_second_end :
    NewEnd (worn10 (tool 5 .active (some 0)))
      (judged (some 10) (edited 0x40 0 { zeroMeasures with stockNow := 100 } (worn10 (tool 5 .active (some 0)))))
      ∧ due.seats[0].service = .due := by decide

theorem wit_RetireAndUnlinkRemoveTheTool :
    Ready running (.retire 8) ∧ Ready running (.unlink 8) ∧ running.find (8 : Half).toNat = some (tool 8 .held none)
      ∧ running.groups[0] = some (wheels [5, 6, 7, 8]) ∧ (tool 5 .active (some 0)).state = .active
      ∧ (world [{ tool 9 .held none with group := none }] [] []).find (9 : Half).toNat
        = some { tool 9 .held none with group := none } := by decide

theorem wit_NamedThingMustExist :
    Instr.query 9 ∈ [Instr.retire 9, .query 9, .lock 9, .unlock 9, .unlink 9] ∧ Ready running (.query 9)
      ∧ running.find (9 : Half).toNat = none ∧ (15 : Byte).toNat = (15 : SeatNo).val
      ∧ running.seats[15].service ≠ .halted ∧ Ready running (.release 15) ∧ Ready running (.condemn 15) := by decide

theorem wit_ReportingCommandsReport :
    Ready running (.query 8) ∧ running.find (8 : Half).toNat = some (tool 8 .held none) ∧ TableOrdered running
      ∧ tool 8 .held none ∈ running.table ∧ (7 : Half).toNat < (tool 8 .held none).number
      ∧ (∀ x ∈ running.table, (7 : Half).toNat < x.number → (tool 8 .held none).number ≤ x.number)
      ∧ (∀ x ∈ running.table, x.number ≤ (8 : Half).toNat) ∧ Ready running (.next 8)
      ∧ Ready running (.group 31) ∧ (31 : Byte).toNat = (31 : GroupNo).val ∧ running.groups[31] = none
      ∧ running.groups[0] = some (wheels [5, 6, 7, 8]) ∧ Ready running (.whereSeat 15) ∧ Ready running .ident := by decide

theorem wit_LockHoldsAndUnlockReturns :
    Ready running (.lock 6) ∧ running.find (6 : Half).toNat = some (tool 6 .available none)
      ∧ Ready changing (.lock 5) ∧ changing.find (5 : Half).toNat = some (tool 5 .chosen (some 0))
      ∧ Ready waiting (.unlock 5) ∧ waiting.find (5 : Half).toNat = some (tool 5 .held none)
      ∧ ¬ HasEnd (tool 5 .held none) ∧ HasEnd (worn10 (tool 5 .held none))
      ∧ running.find (5 : Half).toNat = some (tool 5 .active (some 0)) := by decide

theorem sound_tool (n : Nat) (h : 1 ≤ n ∧ n ≤ 65534) : RecordSound (tool n .held none) := by
  constructor <;> simp [tool, endedOf, reached, EndedSet.empty, h]

/-- A table of a HELD record, with a command waiting. -/
def oneHeld : State := { world [tool 8 .held none] [(0, wheels [8])] [] with pending := [.lock 8] }

theorem wit_EveryStepKeepsTheTableSound : TableSound oneHeld ∧ ∃ t, step oneHeld = .next t := by
  refine ⟨⟨by decide, ?_⟩, _, rfl⟩
  intro r hr
  have : r = tool 8 .held none := by simpa [oneHeld, world] using hr
  rw [this]
  exact sound_tool 8 (by decide)

/-- Group 31 is the last; group 0 is defined and, in `running`, in use. -/
theorem wit_DefineMakesTheGroup :
    Ready State.reset (.define { zeroDefine with group := 31 }) ∧ (31 : Byte).toNat = (31 : GroupNo).val
      ∧ ((0 : Byte) = 0 ∧ Policy.priority = .priority ∨ (0 : Byte) = 1 ∧ Policy.priority = .rotate)
      ∧ State.reset.groups[31] = none ∧ (world [] [(31, wheels [])] []).groups[31] = some (wheels [])
      ∧ (∀ q : SeatNo, (world [] [(31, wheels [])] []).seats[q].group ≠ some 31)
      ∧ ((2 : Byte) = 1 ∧ Kind.dresser = .wheel ∨ (2 : Byte) = 2 ∧ Kind.dresser = .dresser) := by decide

theorem wit_DefineMakesTheGroup_in_use :
    (2 : Byte).toNat ≤ 2 ∧ (2 : Byte).toNat ≠ kindCode (running.groups[(0 : GroupNo)].map (·.kind)) ∧ InUse running 0 :=
  ⟨by decide, by decide, Or.inr ⟨0, by decide⟩⟩

theorem wit_DefineMakesTheGroup_unused : ¬ InUse (world [] [(31, wheels [])] []) 31 := by
  rintro (⟨grp, h, hm⟩ | ⟨q, hq⟩)
  · have : grp = wheels [] := (Option.some.inj (h.symm.trans (by decide)))
    rw [this] at hm
    exact hm rfl
  · exact (by decide : ∀ q : SeatNo, (world [] [(31, wheels [])] []).seats[q].group ≠ some 31) q hq

theorem wit_RedefineRewritesTheGroup :
    Ready running (.define { zeroDefine with kind := 1, policy := 1 }) ∧ running.groups[0] = some (wheels [5, 6, 7, 8])
      ∧ ((1 : Byte) = 0 ∧ Policy.rotate = .priority ∨ (1 : Byte) = 1 ∧ Policy.rotate = .rotate)
      ∧ ((1 : Byte) = 1 ∧ (wheels [5, 6, 7, 8]).kind = .wheel ∨ (1 : Byte) = 2 ∧ (wheels [5, 6, 7, 8]).kind = .dresser) := by
  decide

theorem wit_DefineAndLinkChecks :
    FirstFailing [((32 : Byte).toNat > 31, .badArg), (False, .inUse)] .badArg
      ∧ InUse running 0 ∧ (0 : Byte).toNat ≠ kindCode (running.groups[(0 : GroupNo)].map (·.kind))
      ∧ running.groups[1] = none ∧ running.find 9 = none ∧ (tool 8 .held none).group ≠ none
      ∧ (roll 9 .held none).kind ≠ (wheels []).kind ∧ (wheels (List.range 12)).members.length ≥ 12
      ∧ (tool 9 .broken none).state = .broken :=
  ⟨Or.inl ⟨by decide, rfl⟩, Or.inr ⟨0, by decide⟩, by decide, by decide, by decide, by decide, by decide, by decide,
    by decide⟩

/-- The last place of a list of twelve: eleven members, and an index of 255. -/
theorem wit_LinkInsertsTheMember :
    Ready (world [{ tool 9 .available none with group := none }] [(0, wheels [1, 2, 3, 4, 5, 6, 7, 8, 10, 11, 12])] [])
        (.link 0 9 255)
      ∧ (world [{ tool 9 .available none with group := none }] [(0, wheels [1, 2, 3, 4, 5, 6, 7, 8, 10, 11, 12])] []).find
        (9 : Half).toNat = some { tool 9 .available none with group := none }
      ∧ (tool 9 .available none).kind = (wheels []).kind ∧ (tool 9 .available none).state ≠ .broken
      ∧ (wheels [1, 2, 3, 4, 5, 6, 7, 8, 10, 11, 12]).members.length < 12 := by decide

/-- A ROTATE cursor at the last index; a choice with an unwarned member, and one with a warned member alone. -/
theorem wit_SelectionPrefersUnwarned :
    (let grp : Group := { wheels [5, 6] with params := { params with policy := .rotate }, cursor := some 1 };
      grp.params.policy = .rotate ∧ grp.cursor = some 1 ∧ 1 < grp.members.length)
      ∧ (wheels [5, 6]).params.policy = .priority
      ∧ choose running 0 (wheels [5, 6]) none = some (1, 6)
      ∧ choose (world [{ tool 6 .available none with warned := true }] [] []) 0 (wheels [5, 6]) none = some (1, 6)
      ∧ choose running 0 (wheels [5, 6]) (some 6) = none := by decide

theorem wit_SelectionTakesOrQueues :
    running.seats[0].group = some 0 ∧ running.groups[0] = some (wheels [5, 6, 7, 8])
      ∧ choose running 0 (wheels [5, 6, 7, 8]) none = some (1, 6)
      ∧ choose running 0 (wheels [5, 6, 7, 8]) (some 6) = none := by decide

theorem wit_GrantsServeTheQueue :
    TableOrdered waiting ∧ waiting.groups[0] = some { wheels [5] with queue := [0] }
      ∧ (∀ q ∈ ({ wheels [5] with queue := [0] } : Group).queue, waiting.seats[q].group = some 0) := by decide

/-- The waiting seat's group has had its tool made AVAILABLE. -/
def freed : State := waiting.putRecord (tool 5 .available none)

theorem wit_EligibleToolServesTheHead :
    freed.find (tool 5 .available none).number = some (tool 5 .available none)
      ∧ freed.groups[0] = some { wheels [5] with queue := [0] } ∧ ¬ HasEnd (tool 5 .available none)
      ∧ (tool 5 .available none).number ∈ ({ wheels [5] with queue := [0] } : Group).members
      ∧ freed.seats[0].group = some 0
      ∧ (∀ n ∈ ({ wheels [5] with queue := [0] } : Group).members, n ≠ 5 → freed.eligible 0 n = false)
      ∧ waiting.find (tool 5 .held none).number = some (tool 5 .held none) ∧ (tool 5 .held none).state ≠ .available := by
  decide

theorem wit_BindAndUnbind :
    Ready running (.bind 13 0) ∧ (13 : Byte).toNat = (13 : SeatNo).val ∧ running.seats[13].service = .unbound
      ∧ running.groups[0] = some (wheels [5, 6, 7, 8])
      ∧ ((wheels [5, 6, 7, 8]).kind = .wheel ↔ (13 : SeatNo).val % 4 < 2)
      ∧ Ready running (.unbind 15) ∧ running.seats[15].service = .unbound ∧ halted.seats[0].service = .halted
      ∧ InService running 0 ∧ (cutting running).cutOpenAt 0 = true ∧ running.cutOpenAt 0 = false
      ∧ waiting.seats[0].service = .waiting ∧ waiting.holder 0 = none
      ∧ running.holder 0 = some (tool 5 .active (some 0)) ∧ (0 : SeatNo) ∉ (wheels [5, 6, 7, 8]).queue
      ∧ changing.seats[0].service = .changing ∧ changing.holder 0 = some (tool 5 .chosen (some 0)) := by decide

theorem wit_SeatCommandChecks :
    (16 : Byte).toNat > 15 ∧ running.seats[0].service ≠ .unbound ∧ running.groups[1] = none
      ∧ ¬ ((wheels []).kind = .wheel ↔ (14 : Byte).toNat % 4 < 2) ∧ running.seats[0].service ≠ .changing
      ∧ changing.find 9 = none
      ∧ ¬ ((tool 8 .held none).state = .available) ∧ ¬ InService halted 0 ∧ CutOpen (cutting running) 0
      ∧ (∀ n ∈ (wheels [5]).members, halted.eligible 0 n = false) := by decide

theorem wit_LeavingServiceAndChanging :
    (14 : SeatNo).val % 4 ≥ 2 ∧ ¬ CutOpen running 0 ∧ CutOpen (cutting running) 0
      ∧ (cutting running).holder (seatOfWheel 0) = some (tool 5 .active (some 0))
      ∧ (cutting running).seats[seatOfWheel 0].group = some 0
      ∧ (cutting running).groups[0] = some (wheels [5, 6, 7, 8])
      ∧ (leaveService running 0).holder 0 = some (tool 5 .active (some 0)) := by decide

theorem wit_MountPutsTheToolInService :
    Ready changing (.mount 0 5) ∧ (0 : Byte).toNat = (0 : SeatNo).val ∧ changing.seats[0].service = .changing
      ∧ changing.find (5 : Half).toNat = some (tool 5 .chosen (some 0)) ∧ (0 : SeatNo) = seatOfWheel 0
      ∧ (world [roll 20 .chosen (some 14)] [(1, rolls [20])] [(14, .changing, 1)]).seats[14].service = .changing
      ∧ (14 : SeatNo).val % 4 ≥ 2 := by decide

theorem wit_MountOfAnAlternative :
    Ready changing (.mount 0 6) ∧ TableOrdered changing ∧ changing.seats[0].service = .changing
      ∧ changing.seats[0].group = some 0 ∧ changing.groups[0] = some (wheels [5, 6]) ∧ (wheels [5, 6]).queue = []
      ∧ changing.find (6 : Half).toNat = some (tool 6 .available none) ∧ (tool 6 .available none).group = some 0
      ∧ ¬ HasEnd (tool 6 .available none) ∧ changing.holder 0 = some (tool 5 .chosen (some 0))
      ∧ ¬ HasEnd (tool 5 .chosen (some 0)) := by decide

theorem wit_SwapSelectsASister :
    Ready running (.swap 0) ∧ TableOrdered running ∧ InService running 0 ∧ running.cutOpenAt 0 = false
      ∧ running.seats[0].group = some 0 ∧ running.groups[0] = some (wheels [5, 6, 7, 8])
      ∧ running.holder 0 = some (tool 5 .active (some 0)) ∧ 6 ∈ (wheels [5, 6, 7, 8]).members
      ∧ running.eligible 0 6 = true := by decide

theorem wit_CutRisingEdgeBeginsACut :
    running.nRST = true ∧ InService running (seatOfWheel 0) ∧ ¬ CutOpen running 0
      ∧ running.seats[seatOfWheel 0].group = some 0 ∧ running.groups[0] = some (wheels [5, 6, 7, 8])
      ∧ ¬ InService running (seatOfWheel 7) ∧ InService (cutting running) (seatOfWheel 0) ∧ CutOpen (cutting running) 0 := by
  decide

/-- A cut whose charge ends the tool: 123 units of wear against a limit of 100, with a part open and without. -/
def ending : State :=
  cutting (world [{ tool 5 .active (some 0) with wearLimit := some 100 }] [(0, wheels [5])] [(0, .running, 0)])

theorem wit_CutFallingEdgeClosesTheCut :
    ¬ CutOpen running 0 ∧ CutOpen ending 0 ∧ (0 : SeatNo) = seatOfWheel 0
      ∧ ending.holder 0 = some { tool 5 .active (some 0) with wearLimit := some 100 }
      ∧ ending.seats[0].group = some 0 ∧ ending.groups[0] = some (wheels [5]) ∧ ending.seats[0].service = .running
      ∧ NewEnd { tool 5 .active (some 0) with wearLimit := some 100 }
        (chargedTo (some 10) (Safety.worn 12345 100 { tool 5 .active (some 0) with wearLimit := some 100 }))
      ∧ ending.marginOf (tool 5 .active (some 0)) = some 10
      ∧ ¬ NewEnd (tool 5 .active (some 0)) (chargedTo (some 10) (Safety.worn 12345 100 (tool 5 .active (some 0))))
      ∧ (opened ending).stations[stationOf 0].partOpen = true ∧ ending.stations[stationOf 0].partOpen = false := by decide

theorem wit_PartEndCountsAndChanges :
    running.stations[0].partOpen = false ∧ TableOrdered due ∧ due.stations[0].partOpen = true
      ∧ due.holder 0 = some (worn10 (tool 5 .active (some 0))) ∧ EndsAt due 0 0 (worn10 (tool 5 .active (some 0)))
      ∧ CountsAt (atWheel (opened running) fun x => { x with cutSeen := true }) 0 0 (tool 5 .active (some 0))
      ∧ ¬ EndsAt (atWheel (opened running) fun x => { x with cutSeen := true }) 0 0 (tool 5 .active (some 0))
      ∧ ¬ AtStation 4 0 ∧ (3 : StationNo) ≠ 0 := by decide

/-- A phase timer at its time and one tick before it, and a stretch timer likewise. -/
theorem wit_PhaseAndStretchTimersEnd :
    PinsDriven (atWheel State.reset fun x => { x with phase := .engage, phaseTimer := some { count := 50, time := 50 } })
      ∧ (atWheel State.reset fun x => { x with phase := .engage, phaseTimer := some { count := 50, time := 50 } }).wheels[0].phase
        = .engage
      ∧ (∀ t : PhaseTimer, (some { count := 49, time := 50 } : Option PhaseTimer) = some t → t.count < t.time)
      ∧ (∀ t : StretchTimer, (some { count := 999, time := 1000 } : Option StretchTimer) = some t → t.count < t.time) :=
  ⟨driven_of_reset rfl rfl rfl rfl rfl, by decide, by rintro t ⟨⟩; decide, by rintro t ⟨⟩; decide⟩

/-- A part whose station 0 has its lamp stretched to the last tick. -/
def stretched : State :=
  { State.reset with
    stations := State.reset.stations.set 0 { partOpen := false, stretch := some { count := 1000, time := 1000 } }
    pins := { State.reset.pins with lamp := State.reset.pins.lamp.set 0 true } }

theorem wit_PhaseAndStretchTimersEnd_stretched :
    PinsDriven stretched ∧ stretched.stations[0].stretch = some { count := 1000, time := 1000 } := by
  refine ⟨?_, by decide⟩
  refine ⟨?_, ?_, ?_⟩ <;> decide

theorem wit_TickCountsAndSamples :
    running.nRST = true ∧ dueEvents running = [] ∧ running.seats[seatOfWheel 0].group = some 0
      ∧ running.groups[0] = some (wheels [5, 6, 7, 8]) := by decide

theorem wit_TickCountsAndSamples_one_event :
    (let s := atWheel running fun x => { x with phase := .settle, phaseTimer := some { count := 30, time := 30 } };
      dueEvents s = [.blankingEnd 0] ∧ dueEvents (after (rowOf (.blankingEnd 0)) s) = []) := by decide

theorem wit_ReadLoadAndSetSense :
    (9 : Byte).toNat > 8 ∧ (8 : Byte).toNat = (8 : ChannelNo).val ∧ Ready State.reset (.readLoad 8) ∧ Ready State.reset (.setSense 8 128)
      ∧ (129 : Byte).toNat > 128 ∧ 1 ≤ (1 : Byte).toNat ∧ (128 : Byte).toNat ≤ 128 := by decide

/-- A channel one code short of a full block, and one with room for another. -/
theorem wit_ConversionJoinsTheBlock :
    State.reset.nRST = true ∧ State.reset.scan.pointer = 0 ∧ 6 + 1 < Channel.reset.count ∧ 7 + 1 ≥ Channel.reset.count := by
  decide

/-- The last codes out of band and in band, with the run count at 2 and at 1. -/
theorem wit_ReferenceMonitorAndSenseFault :
    (State.reset.setScan { State.reset.scan with pointer := 8, run := 2 }).scan.pointer = 8
      ∧ ¬ InBand 487 ∧ InBand 488 ∧ InBand 536 ∧ ¬ InBand 537
      ∧ (let s := State.reset.setScan { State.reset.scan with pointer := 8, run := 2 };
        s.scan.fault = false ∧ (after (.conversionEnd 487) s).scan.fault = true)
      ∧ (let s := State.reset.setScan { State.reset.scan with pointer := 8, run := 2, fault := true };
        s.scan.fault = true ∧ (after (.conversionEnd 488) s).scan.fault = false)
      ∧ (let s := State.reset.setScan { State.reset.scan with pointer := 8, run := 1 };
        s.scan.fault = (after (.conversionEnd 537) s).scan.fault) := by decide

theorem wit_EveryStepKeepsTheScanInRange :
    ScanBounded (queued (.conversionEnd 1023)) ∧ ∃ t, step (queued (.conversionEnd 1023)) = .next t := by
  refine ⟨?_, _, rfl⟩
  constructor <;> decide

/-- Channel LD0 is one code short of a full block; the averages 49 and 50 lie at the loss floor, 900 and 901 at the
ceiling. -/
theorem wit_PublishedAverageIsJudged :
    (let s := running.setChannel (channelOf 0) { Channel.reset with held := 7, sum := 2800 };
      s.nRST = true ∧ s.scan.pointer.val = (0 : WheelNo).val
        ∧ s.scan.channels[channelOf 0].held + 1 ≥ s.scan.channels[channelOf 0].count
        ∧ s.seats[seatOfWheel 0].group = some 0 ∧ s.wheels[0].check = none)
      ∧ LossMet (cutting running) 0 params 49 ∧ ¬ LossMet (cutting running) 0 params 50
      ∧ OverloadMet (cutting running) 0 params 901 ∧ ¬ OverloadMet (cutting running) 0 params 900
      ∧ ContactMet running 0 params 201 ∧ ¬ ContactMet running 0 params 200
      ∧ running.holder (seatOfWheel 0) = some (tool 5 .active (some 0)) ∧ (running.find 5).isSome = true := by decide

/-- The average 350 below, at the lower limit of, at the upper limit of and above the window of a check in flight, at a seat
with an ACTIVE record and at one without. -/
theorem wit_PublishedAverageIsJudged_window :
    (2800 / 8 = 350) ∧ (350 < 351 ∧ 350 ≤ 350 ∧ 350 ≥ 350 ∧ 350 > 349)
      ∧ (∀ r, changing.holder (seatOfWheel 0) = some r → r.state ≠ .active) := by
  refine ⟨by decide, by decide, ?_⟩
  intro r h
  obtain rfl : tool 5 .chosen (some 0) = r := Option.some.inj ((by decide : _ = _).trans h)
  decide

theorem wit_FiringRaisesASuspicion :
    (let s := atWheel running fun x => { x with contact := some { count := 20, fires := true } };
      Fired s 0 .contact ∧ s.holder 0 = some (tool 5 .active (some 0)))
      ∧ (0 : SeatNo) = seatOfWheel 0
      ∧ (∀ k, ¬ Fired State.reset 0 k) ∧ PinsDriven State.reset ∧ State.reset.holder (seatOfWheel 0) = none
      ∧ Fired (atWheel State.reset fun x => { x with loss := some { count := 1, fires := true } }) 0 .loss :=
  ⟨⟨⟨20, rfl⟩, by decide⟩, by decide, (by rintro k ⟨c, h⟩; cases k <;> cases h), driven_reset, by decide, ⟨1, rfl⟩⟩

/-- The SUSPECT tool of a HALTED seat, with no ended measure and with one. -/
theorem wit_ReleaseAndCondemn :
    Ready halted (.release 0) ∧ Ready halted (.condemn 0) ∧ (0 : Byte).toNat = (0 : SeatNo).val
      ∧ (0 : SeatNo) = seatOfWheel 0 ∧ halted.seats[0].service = .halted
      ∧ halted.holder 0 = some { tool 5 .suspect (some 0) with cause := some .loss }
      ∧ ¬ HasEnd { tool 5 .suspect (some 0) with cause := some .loss }
      ∧ HasEnd (worn10 { tool 5 .suspect (some 0) with cause := some .loss })
      ∧ (opened halted).stations[stationOf 0].partOpen = true ∧ halted.stations[stationOf 0].partOpen = false
      ∧ (leaveService halted 0).holder 0 = some { tool 5 .suspect (some 0) with cause := some .loss } := by decide

/-- Equal limits at 1023, and a duration of one step at its tenth tick and its ninth. -/
theorem wit_CheckBeginsAndEnds :
    Ready running (.check 0 1023 2000 0) ∧ (0 : Byte).toNat = (0 : SeatNo).val ∧ (0 : SeatNo) = seatOfWheel 0
      ∧ InService running 0 ∧ running.wheels[0].phase = .idle ∧ running.scan.fault = false
      ∧ running.wheels[0].check = none ∧ min (1023 : Half).toNat 1023 ≤ min (2000 : Half).toNat 1023
      ∧ (10 : Nat) ≥ 10 * 1 ∧ (9 : Nat) < 10 * 1 ∧ State.reset.wheels[0].check = none := by decide

theorem wit_CheckAndDressChecks :
    (16 : Byte).toNat > 15 ∧ (2 : Byte).toNat % 4 ≥ 2
      ∧ min (1023 : Half).toNat 1023 > min (1022 : Half).toNat 1023 ∧ (0 : Byte).toNat = (seatOfWheel 0).val
      ∧ ¬ InService State.reset (seatOfWheel 0) ∧ (cutting running).wheels[0].phase ≠ .idle
      ∧ (atWheel running fun x => { x with check := some { lo := 0, hi := 1, steps := 1, count := 0, tested := false } }).wheels[0].check
        ≠ none
      ∧ ¬ HoldsTool State.reset 0 ∧ Ready State.reset (.dress 0 0) := by decide

theorem wit_DressChargesWheelAndRoll :
    Ready withRoll (.dress 0 2001) ∧ TableOrdered withRoll ∧ (0 : Byte).toNat = (seatOfWheel 0).val
      ∧ HoldsTool withRoll (seatOfWheel 0) ∧ withRoll.holder (seatOfWheel 0) = some (tool 5 .active (some 0))
      ∧ ¬ HoldsTool running (dresserOf 0) ∧ HoldsTool withRoll (dresserOf 0)
      ∧ withRoll.holder (dresserOf 0) = some (roll 20 .active (some 2)) ∧ withRoll.seats[dresserOf 0].group = some 1
      ∧ withRoll.groups[1] = some (rolls [20])
      ∧ NewEnd (tool 5 .active (some 0)) (chargedTo (some 10) (dressed (within 1 2000 400) (tool 5 .active (some 0))))
      ∧ ¬ NewEnd (tool 5 .active (some 0)) (chargedTo (some 10) (dressed (within 1 2000 399) (tool 5 .active (some 0)))) := by
  decide

/-- Seats 0 and 1 RUNNING the two tools of group 0, both cut in the open part; the next part is the last of tool 5. -/
def twoRunning : State :=
  let s := opened (world [{ tool 5 .active (some 0) with partsUsed := 9 }, tool 6 .active (some 1)] [(0, wheels [5, 6])]
    [(0, .running, 0), (1, .running, 0)])
  { s with
    wheels := (s.wheels.set 0 { s.wheels[0] with cutSeen := true }).set 1 { s.wheels[1] with cutSeen := true }
    pending := [.partEnd 0] }

theorem groups_twoRunning : ∀ (g : GroupNo) (grp : Group), twoRunning.groups[g] = some grp → g = 0 ∧ grp = wheels [5, 6] := by
  have h : ∀ g : GroupNo, g = 0 ∨ twoRunning.groups[g] = none := by decide
  intro g grp hg
  rcases h g with rfl | h
  · exact ⟨rfl, Option.some.inj (hg.symm.trans (by decide))⟩
  · rw [h] at hg; cases hg

theorem twoRunning_consistent : Consistent twoRunning := by
  have hG := groups_twoRunning
  constructor
  · refine ⟨by decide, fun r hr => ?_⟩
    have : r = { tool 5 .active (some 0) with partsUsed := 9 } ∨ r = tool 6 .active (some 1) := by
      simpa [twoRunning, opened, world] using hr
    rcases this with rfl | rfl <;> constructor <;> decide
  · decide
  · decide
  · intro r hr g hg
    have h : ∀ r ∈ twoRunning.table, r.group = some 0 ∧ r.number ∈ (wheels [5, 6]).members ∧ r.kind = (wheels [5, 6]).kind
      ∧ r.wearCarry < (wheels [5, 6]).params.nominalLoad := by decide
    obtain ⟨h1, h2⟩ := h r hr
    obtain rfl : g = 0 := Option.some.inj (hg.symm.trans h1)
    exact ⟨wheels [5, 6], by decide, h2⟩
  · intro g grp hg
    obtain ⟨rfl, rfl⟩ := hG g grp hg
    refine ⟨by decide, by decide, by decide, fun n hn => ?_⟩
    have : n = 5 ∨ n = 6 := by simpa [wheels] using hn
    rcases this with rfl | rfl
    · exact ⟨{ tool 5 .active (some 0) with partsUsed := 9 }, by decide⟩
    · exact ⟨tool 6 .active (some 1), by decide⟩
  · intro g grp hg
    obtain ⟨rfl, rfl⟩ := hG g grp hg
    constructor <;> decide
  · intro g grp c hg hc
    obtain ⟨rfl, rfl⟩ := hG g grp hg
    cases hc
  · intro g grp hg
    obtain ⟨rfl, rfl⟩ := hG g grp hg
    decide
  · intro g grp hg h
    obtain ⟨rfl, rfl⟩ := hG g grp hg
    exact absurd rfl h
  · decide
  · intro q g hg
    have h : ∀ q : SeatNo, twoRunning.seats[q].group ≠ none → twoRunning.seats[q].group = some 0 ∧ q.val % 4 < 2
      ∧ twoRunning.seats[q].service ≠ .waiting := by decide
    obtain ⟨h1, h2, h3⟩ := h q (by rw [hg]; nofun)
    obtain rfl : g = 0 := Option.some.inj (hg.symm.trans h1)
    exact ⟨wheels [5, 6], by decide, ⟨fun _ => h2, fun _ => rfl⟩, fun h => absurd h h3⟩
  · decide
  · decide
  · intro q hq; exact absurd hq ((by decide : ∀ q : SeatNo, twoRunning.seats[q].service ≠ .changing) q)
  · intro q hq
    have h : ∀ q : SeatNo, twoRunning.seats[q].service = .running → q = 0 ∨ q = 1 := by decide
    rcases h q hq with rfl | rfl
    · exact ⟨{ tool 5 .active (some 0) with partsUsed := 9 }, by unfold Names; decide⟩
    · exact ⟨tool 6 .active (some 1), by unfold Names; decide⟩
  · intro q hq; exact absurd hq ((by decide : ∀ q : SeatNo, twoRunning.seats[q].service ≠ .due) q)
  · intro q hq; exact absurd hq ((by decide : ∀ q : SeatNo, twoRunning.seats[q].service ≠ .halted) q)
  all_goals decide

theorem wit_EveryStepKeepsThePartConsistent : Consistent twoRunning ∧ ∃ t, step twoRunning = .next t :=
  ⟨twoRunning_consistent, _, rfl⟩

/-- In a part that is consistent, a tool ended by the count, a tool counted and not ended, and a seat without a tool. -/
theorem wit_PartEndCountsAndChanges_consistent :
    Consistent twoRunning ∧ twoRunning.stations[0].partOpen = true
      ∧ (let r := { tool 5 .active (some 0) with partsUsed := 9 };
        twoRunning.holder 0 = some r ∧ r.state = .active ∧ EndsAt twoRunning 0 0 r)
      ∧ twoRunning.seats[0].group = some 0 ∧ twoRunning.groups[0] = some (wheels [5, 6])
      ∧ twoRunning.holder 1 = some (tool 6 .active (some 1)) ∧ CountsAt twoRunning 0 1 (tool 6 .active (some 1))
      ∧ ¬ EndsAt twoRunning 0 1 (tool 6 .active (some 1)) ∧ twoRunning.holder 2 = none :=
  ⟨twoRunning_consistent, by decide⟩

theorem wit_TakeNoticesClearsTheSnapshot : Ready State.reset .takeNotices := by decide

theorem wit_OnlyTakeNoticesAndResetsClearFlags :
    exec (.query 7) State.reset = .next (after (.query 7) State.reset) ∧ Instr.query 7 ≠ .takeNotices
      ∧ Instr.query 7 ≠ .restart ∧ Instr.query 7 ≠ .nrstLow ∧ Instr.query 7 ≠ .nrstHigh
      ∧ (∀ n, Instr.query 7 ≠ .powerOn n) := ⟨rfl, by decide⟩

/-- A frame in progress, and a row that is none of frames and resets. -/
theorem wit_StatusByteShowsTheConditions :
    exec .resume fetching = .next (after .resume fetching) ∧ fetching.link.frame ≠ none
      ∧ (∀ m a l, Instr.resume ≠ .statusFrame m a l ∧ Instr.resume ≠ .commandFrame m a l ∧ Instr.resume ≠ .fetchFrame m a l)
      ∧ (∀ m b, Instr.resume ≠ .frameOfNoKind m b) ∧ (∀ n, Instr.resume ≠ .powerOn n) :=
  ⟨rfl, by decide, fun _ _ _ => ⟨nofun, nofun, nofun⟩, fun _ _ => nofun, fun _ => nofun⟩

/-- The reset state with a frame in progress at address 0. -/
def inFrame (crcen : Bool) : State := begun State.reset (straps crcen)

theorem driven_inFrame (crcen : Bool) : PinsDriven (inFrame crcen) := driven_of_reset rfl rfl rfl rfl rfl

/-- With CRCEN low any second byte is taken; with it high only the check byte is. -/
theorem wit_StatusAndKindlessFrames :
    PinsDriven (inFrame true) ∧ (∃ f, Addressed (inFrame true) 0 f) ∧ (∀ f, ¬ Addressed (inFrame true) 1 f)
      ∧ (∀ f, ¬ Addressed State.reset 0 f) ∧ crc8 [headerByte 0 false false 0] = 0
      ∧ (∀ (low : BitVec 4) (b : Byte), ([] : List Bool) ≠ lowBits low ++ bitsOf b) :=
  ⟨driven_inFrame true, ⟨_, rfl, rfl⟩, (by rintro f ⟨⟨⟩, h⟩; cases h), (by rintro f ⟨h, _⟩; cases h), by decide,
    by intro low b h; cases h⟩

theorem wit_CommandFrameIsTakenOrRejected :
    PinsDriven (inFrame false) ∧ (∃ f, Addressed (inFrame false) 0 f ∧ Carries f.crcen 0 (tailOf [0x60]) .takeNotices)
      ∧ (∀ f, ¬ Addressed (inFrame false) 3 f) ∧ (∀ c, (inFrame false).link.buffer ≠ .pending c)
      ∧ (∀ i, ¬ Carries false 0 [] i) :=
  ⟨driven_inFrame false, ⟨_, ⟨rfl, rfl⟩, ⟨0, 0x60, [], rfl, rfl⟩⟩, (by rintro f ⟨⟨⟩, h⟩; cases h), (by intro c h; cases h),
    by rintro i ⟨low, code, args, _, h⟩; cases h⟩

/-- The shortest accepted FETCH has 24 clocks, one of 16 clocks is too short, and one of 25 is cut inside a byte; a second
byte that is not the check byte does not match, and neither does one that was not taken. -/
theorem wit_FetchReturnsTheReply :
    PinsDriven (inFrame true) ∧ (∃ f, Addressed (inFrame true) 0 f ∧ f.reply = none) ∧ (∀ f, ¬ Addressed (inFrame true) 3 f)
      ∧ Matched false 0 (tailOf [0, 0]) ∧ (4 + (tailOf [0, 0]).length) % 8 = 0 ∧ 4 + (tailOf [0, 0]).length ≥ 24
      ∧ Matched false 0 (tailOf [0]) ∧ 4 + (tailOf [0]).length < 24
      ∧ Matched false 0 (tailOf [0, 0] ++ [true]) ∧ (4 + (tailOf [0, 0] ++ [true]).length) % 8 ≠ 0
      ∧ Matched true 0 (tailOf [crc8 [headerByte 0 true false 0], 0]) ∧ ¬ Matched true 0 (tailOf [0, 0])
      ∧ ¬ Matched false 0 [] ∧ (∃ f, Addressed (after (.fetchFrame .thirdByte 0 (tailOf [0, 0])) (inFrame false)) 0 f
        ∧ f.reply ≠ none) :=
  ⟨driven_inFrame true, ⟨_, ⟨rfl, rfl⟩, rfl⟩, (by rintro f ⟨⟨⟩, h⟩; cases h), ⟨0, 0, bitsOf 0, rfl, by decide⟩, by decide,
    by decide, ⟨0, 0, [], rfl, by decide⟩, by decide, ⟨0, 0, bitsOf 0 ++ [true], rfl, by decide⟩, by decide,
    ⟨0, _, bitsOf 0, rfl, fun _ => rfl⟩, (by rw [← fetchMatched_iff]; decide), (by rw [← fetchMatched_iff]; decide),
    ⟨_, ⟨rfl, rfl⟩, by decide⟩⟩

/-- The count at the period, and one below it. -/
theorem wit_WatchdogExpiryEntersHold :
    (let s := State.reset.setLink { State.reset.link with period := .ms50, watchdog := some 50 };
      s.nRST = true ∧ s.link.watchdog = some 50 ∧ periodTicks s.link.period = some 50)
      ∧ PinsDriven (State.reset.setLink { State.reset.link with period := .ms1000, watchdog := some 999 })
      ∧ (999 : Nat) < 1000 :=
  ⟨by decide, driven_of_reset rfl rfl rfl rfl rfl, by decide⟩

theorem wit_SetLinkAndResume :
    Ready State.reset (.setLink 3 3) ∧ (3 : Byte).toNat ≥ 3 ∧ Ready State.reset .resume ∧ State.reset.link.hold = false
      ∧ (State.reset.setLink { State.reset.link with hold := true }).link.hold = true := by decide

end Sys2Proof.Tests
end

/-! The commands LOCK (R29) and UNLOCK (R17): what each answers to a tool number, check by check and state by state, and
O21 from these. -/

namespace Sys2Proof.Proofs

open Sys2Proof.Machine Sys2Proof.Safety Sys2Proof.Laws

/-- A command completes as its own function says. -/
theorem completesAs_of {i : Instr} {f : State → State × Reply} {s t : State} {r : Reply} (h : Ready s i)
    (he : exec i s = complete i f s) (hf : f s = (t, r)) : CompletesAs i s t r :=
  he.trans (complete_of h hf)

/-- The model's reply DONE is the one the statements name. -/
theorem reply_done : reply .done = done := rfl

section Commands

variable {tool : Half} {s : State} {r : ToolRecord}

/-! ### Tool numbers that name no record -/

theorem lockCommand_bad_tool (h : tool = 0 ∨ tool = 0xFFFF) : lockCommand tool s = (s, reply .badArg) := by
  simp only [lockCommand, toolArg_bad h]

theorem lockCommand_unknown (ht : ¬ (tool = 0 ∨ tool = 0xFFFF)) (hf : s.find tool.toNat = none) :
    lockCommand tool s = (s, reply .unknownTool) := by
  obtain ⟨h0, h1⟩ := not_or.1 ht
  simp only [lockCommand, toolArg_ne h0 h1, hf]

theorem unlockCommand_bad_tool (h : tool = 0 ∨ tool = 0xFFFF) : unlockCommand tool s = (s, reply .badArg) := by
  simp only [unlockCommand, toolArg_bad h]

theorem unlockCommand_unknown (ht : ¬ (tool = 0 ∨ tool = 0xFFFF)) (hf : s.find tool.toNat = none) :
    unlockCommand tool s = (s, reply .unknownTool) := by
  obtain ⟨h0, h1⟩ := not_or.1 ht
  simp only [unlockCommand, toolArg_ne h0 h1, hf]

/-! ### LOCK, by the state of the record -/

variable (h0 : tool ≠ 0) (h1 : tool ≠ 0xFFFF) (hf : s.find tool.toNat = some r)
include h0 h1 hf

theorem lockCommand_of_unseated (hs : r.state = .available ∨ r.state = .spent) :
    lockCommand tool s = (s.putRecord { r with state := .held }, done) := by
  rw [← restate_eq s tool.toNat r .held hf]
  rcases hs with hs | hs <;> simp only [lockCommand, toolArg_ne h0 h1, hf, hs, reply_done]

theorem lockCommand_of_chosen {q : SeatNo} (hs : r.state = .chosen) (hq : r.seat = some q) :
    lockCommand tool s = (select (s.putRecord { r with state := .held, seat := none }) q none, done) := by
  rw [← reselect_eq s tool.toNat r .held q hf hq]
  simp only [lockCommand, toolArg_ne h0 h1, hf, hs, reply_done]

theorem lockCommand_of_held (hs : r.state = .held) : lockCommand tool s = (s, done) := by
  simp only [lockCommand, toolArg_ne h0 h1, hf, hs, reply_done]

theorem lockCommand_of_mounted (hs : r.state = .active ∨ r.state = .suspect) :
    lockCommand tool s = (s, reply .inUse) := by
  rcases hs with hs | hs <;> simp only [lockCommand, toolArg_ne h0 h1, hf, hs]

theorem lockCommand_of_broken (hs : r.state = .broken) : lockCommand tool s = (s, reply .badState) := by
  simp only [lockCommand, toolArg_ne h0 h1, hf, hs]

/-! ### UNLOCK, by the state of the record and its ended set -/

theorem unlockCommand_of_not_held (hs : r.state ≠ .held) : unlockCommand tool s = (s, reply .badState) := by
  simp only [unlockCommand, toolArg_ne h0 h1, hf, if_neg hs]

theorem unlockCommand_of_ended (hs : r.state = .held) (he : HasEnd r) :
    unlockCommand tool s = (s.putRecord { r with state := .spent }, done) := by
  rw [← restate_eq s tool.toNat r .spent hf]
  have hne : ¬ r.ended.isEmpty = true := fun h => (ended_isEmpty_iff r).1 h he
  simp only [unlockCommand, toolArg_ne h0 h1, hf, if_pos hs, if_neg hne, reply_done]

theorem unlockCommand_of_unended (hs : r.state = .held) (he : ¬ HasEnd r) :
    unlockCommand tool s = (inform (s.putRecord { r with state := .available }) tool.toNat, done) := by
  rw [← restate_eq s tool.toNat r .available hf]
  simp only [unlockCommand, toolArg_ne h0 h1, hf, if_pos hs, if_pos ((ended_isEmpty_iff r).2 he), reply_done]

end Commands

/-! ### The checks, in their order -/

theorem lock_refuses {tool : Half} {s : State} {c : ReplyCode} (h : Ready s (.lock tool))
    (hc : FirstFailing [(tool = 0 ∨ tool = 0xFFFF, .badArg), (s.find tool.toNat = none, .unknownTool)] c) :
    Answers (.lock tool) s c := by
  obtain ⟨ht, rfl⟩ | ⟨ht, ⟨hf, rfl⟩ | ⟨_, hnone⟩⟩ := hc
  · exact answers_of h (exec_lock s tool) (lockCommand_bad_tool ht)
  · exact answers_of h (exec_lock s tool) (lockCommand_unknown ht hf)
  · exact hnone.elim

theorem unlock_refuses {tool : Half} {s : State} {c : ReplyCode} (h : Ready s (.unlock tool))
    (hc : FirstFailing [(tool = 0 ∨ tool = 0xFFFF, .badArg), (s.find tool.toNat = none, .unknownTool),
      (∃ r, s.find tool.toNat = some r ∧ r.state ≠ .held, .badState)] c) :
    Answers (.unlock tool) s c := by
  obtain ⟨ht, rfl⟩ | ⟨ht, ⟨hf, rfl⟩ | ⟨_, ⟨⟨r, hf, hs⟩, rfl⟩ | ⟨_, hnone⟩⟩⟩ := hc
  · exact answers_of h (exec_unlock s tool) (unlockCommand_bad_tool ht)
  · exact answers_of h (exec_unlock s tool) (unlockCommand_unknown ht hf)
  · obtain ⟨h0, h1⟩ := not_or.1 ht
    exact answers_of h (exec_unlock s tool) (unlockCommand_of_not_held h0 h1 hf hs)
  · exact hnone.elim

/-- Settles O21: the refusals of both commands, then LOCK by the state of the record and UNLOCK by its ended set. -/
theorem lockHoldsAndUnlockReturns : Obligations.LockHoldsAndUnlockReturns := by
  refine ⟨fun tool s c => lock_refuses, fun tool s r h h0 h1 hf => ⟨?_, ?_, ?_, ?_, ?_⟩,
    fun tool s h => ⟨fun c => unlock_refuses h, fun r h0 h1 hf hs he => ?_, fun r h0 h1 hf hs he => ?_⟩⟩
  · exact fun hs => completesAs_of h (exec_lock s tool) (lockCommand_of_unseated h0 h1 hf hs)
  · exact fun q hs hq => completesAs_of h (exec_lock s tool) (lockCommand_of_chosen h0 h1 hf hs hq)
  · exact fun hs => completesAs_of h (exec_lock s tool) (lockCommand_of_held h0 h1 hf hs)
  · exact fun hs => answers_of h (exec_lock s tool) (lockCommand_of_mounted h0 h1 hf hs)
  · exact fun hs => answers_of h (exec_lock s tool) (lockCommand_of_broken h0 h1 hf hs)
  · exact completesAs_of h (exec_unlock s tool) (unlockCommand_of_ended h0 h1 hf hs he)
  · exact completesAs_of h (exec_unlock s tool) (unlockCommand_of_unended h0 h1 hf hs he)

end Sys2Proof.Proofs

/-! When a measure is ended (R9) and when it is within the warn margin (R49), first for one measure, checked or unchecked,
then for a record, and O13 from these. -/

namespace Sys2Proof.Proofs

open Sys2Proof.Machine

/-! ### One measure: unchecked, it has neither ended nor come within the margin -/

theorem reached_iff (used : Nat) (limit : Option Nat) : reached used limit = true ↔ ∃ l, limit = some l ∧ used ≥ l := by
  cases limit with
  | none => simp [reached]
  | some l => simp [reached]

theorem countedWithin_iff (used m : Nat) (limit : Option Nat) :
    countedWithin used m limit = true ↔ ∃ l, limit = some l ∧ used < l ∧ (l - used) * 100 ≤ l * m := by
  cases limit with
  | none => simp [countedWithin]
  | some l => simp [countedWithin]

theorem stockWithin_iff (now start m : Nat) (floor : Option Nat) :
    stockWithin now start m floor = true ↔ ∃ f, floor = some f ∧ f < now ∧ (now - f) * 100 ≤ (start - f) * m := by
  cases floor with
  | none => simp [stockWithin]
  | some f => simp [stockWithin]

/-! ### A record -/

theorem endedOf_stock_iff (r : ToolRecord) :
    (endedOf r).stock = true ↔ ∃ f, r.stockFloor = some f ∧ r.stockNow ≤ f := by
  cases h : r.stockFloor with
  | none => simp [endedOf, h]
  | some f => simp [endedOf, h]

theorem computedWarning_none (r : ToolRecord) : computedWarning r none = false := rfl

/-- The computed warning is yes when one of the four measures is within the margin. -/
theorem computedWarning_some_iff (r : ToolRecord) (m : Nat) :
    computedWarning r (some m) = true ↔
      countedWithin r.partsUsed m r.partsLimit = true ∨ countedWithin r.wearUsed m r.wearLimit = true
      ∨ countedWithin r.dressUsed m r.dressLimit = true
      ∨ stockWithin r.stockNow r.stockStart m r.stockFloor = true := by
  simp only [computedWarning, Bool.or_eq_true, or_assoc]

/-- Settles O13: the three counted measures end alike and warn alike, and STOCK by its floor. -/
theorem endedMeasuresAndWarnings : Obligations.EndedMeasuresAndWarnings := by
  refine ⟨fun r => ⟨?parts, ?wear, ?dress, endedOf_stock_iff r⟩, fun r => ⟨computedWarning_none r, fun m => ?warning⟩⟩
  case parts => exact reached_iff r.partsUsed r.partsLimit
  case wear => exact reached_iff r.wearUsed r.wearLimit
  case dress => exact reached_iff r.dressUsed r.dressLimit
  case warning => rw [computedWarning_some_iff, countedWithin_iff, countedWithin_iff, countedWithin_iff, stockWithin_iff]

end Sys2Proof.Proofs

/-! The checks of DEFINE (R55) and of LINK (R60): what each command answers when a check fails, and O25 from these. -/

namespace Sys2Proof.Proofs

open Sys2Proof.Machine Sys2Proof.Safety Sys2Proof.Laws

/-! ### The kind and the policy that DEFINE carries -/

theorem groupKindArg_gt {b : Byte} (h : b.toNat > 2) : groupKindArg b = none := by
  have h0 : b ≠ 0 := by rintro rfl; exact absurd h (by decide)
  have h1 : b ≠ 1 := by rintro rfl; exact absurd h (by decide)
  have h2 : b ≠ 2 := by rintro rfl; exact absurd h (by decide)
  simp only [groupKindArg, kindArg, if_neg h0, if_neg h1, if_neg h2, Option.map_none]

/-- A kind in range is the code of the kind it stands for. -/
theorem groupKindArg_le {b : Byte} (h : ¬ b.toNat > 2) : ∃ k, groupKindArg b = some k ∧ kindCode k = b.toNat := by
  have hcases : b = 0 ∨ b = 1 ∨ b = 2 := by bv_omega
  rcases hcases with rfl | rfl | rfl
  · exact ⟨none, rfl, rfl⟩
  · exact ⟨some .wheel, rfl, rfl⟩
  · exact ⟨some .dresser, rfl, rfl⟩

theorem policyArg_gt {b : Byte} (h : b.toNat > 1) : policyArg b = none := by
  have h0 : b ≠ 0 := by rintro rfl; exact absurd h (by decide)
  have h1 : b ≠ 1 := by rintro rfl; exact absurd h (by decide)
  simp only [policyArg, if_neg h0, if_neg h1]

theorem policyArg_le {b : Byte} (h : ¬ b.toNat > 1) : ∃ pol, policyArg b = some pol := by
  have hcases : b = 0 ∨ b = 1 := by bv_omega
  rcases hcases with rfl | rfl
  · exact ⟨.priority, rfl⟩
  · exact ⟨.rotate, rfl⟩

/-! ### DEFINE -/

section Define

variable {a : DefineArgs} {s : State}

theorem defineCommand_bad_arg (h : groupArg a.group = none ∨ groupKindArg a.kind = none ∨ policyArg a.policy = none) :
    defineCommand a s = (s, reply .badArg) := by
  unfold defineCommand
  split
  · next hg hk hp => simp only [hg, hk, hp, reduceCtorEq, or_self] at h
  · rfl

/-- With arguments in range, a group in use is refused another kind than its own. -/
theorem defineCommand_in_use {g : GroupNo} (hk : ¬ a.kind.toNat > 2) (hp : ¬ a.policy.toNat > 1)
    (hg : a.group.toNat = g.val) (hne : a.kind.toNat ≠ kindCode (s.groups[g].map (·.kind))) (hu : InUse s g) :
    defineCommand a s = (s, reply .inUse) := by
  obtain ⟨k, hk, hcode⟩ := groupKindArg_le hk
  obtain ⟨pol, hp⟩ := policyArg_le hp
  have hother : k ≠ s.groups[g].map (·.kind) := fun h => hne (by rw [← hcode, h])
  simp only [defineCommand, groupArg_of_toNat hg, hk, hp, if_pos (And.intro hother ((inUse_iff s g).2 hu))]

theorem defineCommand_refuses {c : ReplyCode}
    (hc : FirstFailing [(a.group.toNat > 31, .badArg), (a.kind.toNat > 2 ∨ a.policy.toNat > 1, .badArg),
      (∃ g : GroupNo, a.group.toNat = g.val ∧ a.kind.toNat ≠ kindCode (s.groups[g].map (·.kind)) ∧ InUse s g,
        .inUse)] c) :
    defineCommand a s = (s, reply c) := by
  obtain ⟨hgroup, rfl⟩ | ⟨_, ⟨hkp, rfl⟩ | ⟨hkp, ⟨⟨g, hg, hne, hu⟩, rfl⟩ | ⟨_, hnone⟩⟩⟩ := hc
  · exact defineCommand_bad_arg (.inl (groupArg_gt hgroup))
  · exact defineCommand_bad_arg (.inr (hkp.imp groupKindArg_gt policyArg_gt))
  · obtain ⟨hk, hp⟩ := not_or.1 hkp
    exact defineCommand_in_use hk hp hg hne hu
  · exact hnone.elim

end Define

/-! ### LINK -/

section Link

variable {group index : Byte} {tool : Half} {s : State} {g : GroupNo} {grp : Group} {r : ToolRecord}

theorem linkCommand_bad_arg (h : group.toNat > 31 ∨ tool = 0 ∨ tool = 0xFFFF) :
    linkCommand group tool index s = (s, reply .badArg) := by
  have harg : groupArg group = none ∨ toolArg tool = none := h.imp groupArg_gt toolArg_bad
  unfold linkCommand
  split
  · next hg ht => simp only [hg, ht, reduceCtorEq, or_self] at harg
  · rfl

variable (hg : group.toNat = g.val) (h0 : tool ≠ 0) (h1 : tool ≠ 0xFFFF)
include hg h0 h1

theorem linkCommand_no_group (hs : s.groups[g] = none) : linkCommand group tool index s = (s, reply .noGroup) := by
  simp only [linkCommand, groupArg_of_toNat hg, toolArg_ne h0 h1, hs]

theorem linkCommand_unknown (hs : s.groups[g] = some grp) (hf : s.find tool.toNat = none) :
    linkCommand group tool index s = (s, reply .unknownTool) := by
  simp only [linkCommand, groupArg_of_toNat hg, toolArg_ne h0 h1, hs, hf]

/-- The checks that are left once the group and the tool are found: those on the record and on the group. -/
theorem linkCommand_of_found (hs : s.groups[g] = some grp) (hf : s.find tool.toNat = some r) :
    linkCommand group tool index s =
      if r.group ≠ none then (s, reply .duplicate)
      else if r.kind ≠ grp.kind then (s, reply .wrongKind)
      else if grp.members.length ≥ 12 then (s, reply .listFull)
      else if r.state = .broken then (s, reply .badState)
      else (linkRecord s g grp r index.toNat, reply .done) := by
  simp only [linkCommand, groupArg_of_toNat hg, toolArg_ne h0 h1, hs, hf, Option.isSome_iff_ne_none, ge_iff_le]

end Link

theorem linkCommand_refuses {group index : Byte} {tool : Half} {s : State} {c : ReplyCode}
    (hc : FirstFailing [(group.toNat > 31 ∨ tool = 0 ∨ tool = 0xFFFF, .badArg),
      (∃ g : GroupNo, group.toNat = g.val ∧ s.groups[g] = none, .noGroup),
      (s.find tool.toNat = none, .unknownTool),
      (∃ r, s.find tool.toNat = some r ∧ r.group ≠ none, .duplicate),
      (∃ (g : GroupNo) (grp : Group) (r : ToolRecord), group.toNat = g.val ∧ s.groups[g] = some grp
        ∧ s.find tool.toNat = some r ∧ r.kind ≠ grp.kind, .wrongKind),
      (∃ (g : GroupNo) (grp : Group), group.toNat = g.val ∧ s.groups[g] = some grp ∧ grp.members.length ≥ 12, .listFull),
      (∃ r, s.find tool.toNat = some r ∧ r.state = .broken, .badState)] c) :
    linkCommand group tool index s = (s, reply c) := by
  obtain ⟨hbad, rfl⟩ | ⟨hok, hc⟩ := hc
  · exact linkCommand_bad_arg hbad
  obtain ⟨hgroup, htool⟩ := not_or.1 hok
  obtain ⟨h0, h1⟩ := not_or.1 htool
  obtain ⟨⟨g, hg, hs⟩, rfl⟩ | ⟨hdefined, hc⟩ := hc
  · exact linkCommand_no_group hg h0 h1 hs
  obtain ⟨g, hg⟩ := groupArg_le hgroup
  obtain ⟨grp, hs⟩ := Option.ne_none_iff_exists'.1 fun hs => hdefined ⟨g, hg, hs⟩
  obtain ⟨hf, rfl⟩ | ⟨hknown, hc⟩ := hc
  · exact linkCommand_unknown hg h0 h1 hs hf
  obtain ⟨r, hf⟩ := Option.ne_none_iff_exists'.1 hknown
  rw [linkCommand_of_found hg h0 h1 hs hf]
  -- With the group and the record at hand, the checks that are left speak of them alone.
  simp only [FirstFailing, hg, ← Fin.ext_iff, hf, hs, Option.some.injEq, exists_and_left, exists_eq_left'] at hc
  obtain ⟨hd, rfl⟩ | ⟨hd, ⟨hw, rfl⟩ | ⟨hw, ⟨hl, rfl⟩ | ⟨hl, ⟨hb, rfl⟩ | ⟨_, hnone⟩⟩⟩⟩ := hc
  · rw [if_pos hd]
  · rw [if_neg hd, if_pos hw]
  · rw [if_neg hd, if_neg hw, if_pos hl]
  · rw [if_neg hd, if_neg hw, if_neg hl, if_pos hb]
  · exact hnone.elim

/-- Settles O25: each command's own function refuses at the first check that fails. -/
theorem defineAndLinkChecks : Obligations.DefineAndLinkChecks := by
  refine ⟨fun a s c h hc => ?define, fun group tool index s c h hc => ?link⟩
  case define => exact answers_of h (exec_define s a) (defineCommand_refuses hc)
  case link => exact answers_of h (exec_link s group tool index) (linkCommand_refuses hc)

end Sys2Proof.Proofs

/-! Selection: the order of the search and what a choice prefers (R66), and O27; what a selection does with the member it
chose (R67) and with none (R68), and O28. -/

namespace Sys2Proof.Proofs

open Sys2Proof.Machine Sys2Proof.Safety Sys2Proof.Laws

/-! ### The search order -/

theorem searchOrder_from_start {grp : Group} (h : grp.params.policy = .priority ∨ grp.cursor = none) :
    searchOrder grp = indexed grp := by
  unfold searchOrder
  split
  · next c hpol hcur => simp only [hpol, hcur, reduceCtorEq, or_self] at h
  · rfl

theorem searchOrder_after_cursor {grp : Group} {c : Nat} (hpol : grp.params.policy = .rotate)
    (hcur : grp.cursor = some c) : searchOrder grp = (indexed grp).drop (c + 1) ++ (indexed grp).take (c + 1) := by
  simp only [searchOrder, hpol, hcur, indexed]

theorem searchOrder_fst_after_cursor {grp : Group} {c : Nat} (hpol : grp.params.policy = .rotate)
    (hcur : grp.cursor = some c) (hc : c < grp.members.length) :
    (searchOrder grp).map (·.1) = List.range' (c + 1) (grp.members.length - (c + 1)) ++ List.range (c + 1) := by
  rw [searchOrder_after_cursor hpol hcur, List.map_append, List.map_drop, List.map_take, indexed_fst, List.take_range,
    Nat.min_eq_left hc, List.range_eq_range', List.drop_range', Nat.zero_add, Nat.mul_one]

/-! ### The two passes -/

/-- The test of the second pass is that a member fits. -/
theorem passes_iff_fits (s : State) (g : GroupNo) (e : Option Nat) (n : Nat) :
    (s.eligible g n && e != some n) = true ↔ Fits s g e n := by
  rw [Bool.and_eq_true, eligible_iff, bne_iff_ne]

/-- A choice is the first of the search that fits and is not warned, or, where every member that fits is warned, the first
that fits. -/
theorem choose_prefers_unwarned {s : State} {g : GroupNo} {grp : Group} {e : Option Nat} {p : Nat × Nat}
    (h : choose s g grp e = some p) :
    ∃ before after, searchOrder grp = before ++ p :: after
      ∧ ((s.warnedTool p.2 = false ∧ ∀ x ∈ before, Fits s g e x.2 → s.warnedTool x.2 = true)
        ∨ (s.warnedTool p.2 = true ∧ (∀ x ∈ searchOrder grp, Fits s g e x.2 → s.warnedTool x.2 = true)
            ∧ ∀ x ∈ before, ¬ Fits s g e x.2)) := by
  unfold choose at h
  dsimp only at h
  split at h
  case h_1 x hfirst =>
    obtain rfl : x = p := Option.some.inj h
    obtain ⟨hx, before, after, hsplit, hbefore⟩ := List.find?_eq_some_iff_append.1 hfirst
    refine ⟨before, after, hsplit, .inl ⟨?_, fun y hy hfit => ?_⟩⟩
    · simpa using (Bool.and_eq_true_iff.1 hx).2
    · simpa [(passes_iff_fits s g e y.2).2 hfit] using hbefore y hy
  case h_2 hfirst =>
    obtain ⟨hp, before, after, hsplit, hbefore⟩ := List.find?_eq_some_iff_append.1 h
    have hwarned : ∀ y ∈ searchOrder grp, Fits s g e y.2 → s.warnedTool y.2 = true := fun y hy hfit => by
      simpa [(passes_iff_fits s g e y.2).2 hfit] using List.find?_eq_none.1 hfirst y hy
    have hmem : p ∈ searchOrder grp := List.mem_of_find?_eq_some h
    refine ⟨before, after, hsplit, .inr ⟨hwarned p hmem ((passes_iff_fits s g e p.2).1 hp), hwarned, fun y hy hfit => ?_⟩⟩
    simpa [(passes_iff_fits s g e y.2).2 hfit] using hbefore y hy

/-- Settles O27: the order of the search by the policy and the cursor, and what each pass passes over. -/
theorem selectionPrefersUnwarned : Obligations.SelectionPrefersUnwarned := by
  refine ⟨fun grp => ⟨fun p hp => ?member, fun h => ?start, fun c hpol hcur hc => ?cursor⟩,
    fun s g grp e => ⟨choose_none_iff s g grp e, fun i n h => ⟨(choose_fits h).1, choose_prefers_unwarned h⟩⟩⟩
  case member => exact indexed_mem grp p ((searchOrder_mem grp p).1 hp)
  case start => rw [searchOrder_from_start h, indexed_fst]
  case cursor => exact searchOrder_fst_after_cursor hpol hcur hc

/-! ### What a selection does -/

/-- Writing the service of a seat bound to a group. -/
theorem setService_seats_of_bound {s : State} {q : SeatNo} {g : GroupNo} (v : Service) (hq : s.seats[q].group = some g) :
    (s.setService q v).seats = s.seats.set q { service := v, group := some g } := by
  simp only [setService_seats, hq]

theorem putRecord_othersKept (s : State) (r : ToolRecord) : OthersKept s (s.putRecord r) r.number :=
  ⟨fun _ hm => find_putRecord_ne s (Ne.symm hm), numbers_putRecord s r⟩

theorem select_tookMember {s : State} {q : SeatNo} {g : GroupNo} {grp : Group} {e : Option Nat} {i n : Nat}
    (hq : s.seats[q].group = some g) (hg : s.groups[g] = some grp) (hc : choose s g grp e = some (i, n)) :
    TookMember s (select s q e) q g grp i n := by
  obtain ⟨r, hf, _⟩ := choose_find hc
  obtain rfl : r.number = n := find_number hf
  rw [select_of_some hq hg hc hf]
  exact
    { record := ⟨r, hf, find_putRecord_same (r := { r with state := .chosen, seat := some q }) hf⟩
      others := putRecord_othersKept s { r with state := .chosen, seat := some q }
      seats := setService_seats_of_bound .changing hq
      groups := by simp only [raise_groups, setService_groups, setGroup_groups, putRecord_groups, moveCursor_eq]
      rest := rfl }

theorem select_joinedQueue {s : State} {q : SeatNo} {g : GroupNo} {grp : Group} {e : Option Nat}
    (hq : s.seats[q].group = some g) (hg : s.groups[g] = some grp) (hc : choose s g grp e = none) :
    JoinedQueue s (select s q e) q g grp := by
  rw [select_of_none hq hg hc]
  exact { seats := setService_seats_of_bound .waiting hq, groups := rfl, rest := rfl }

/-- Settles O28: a member chosen is taken, and with none the seat waits. -/
theorem selectionTakesOrQueues : Obligations.SelectionTakesOrQueues :=
  fun _ _ _ _ _ hq hg => ⟨fun _ _ => select_tookMember hq hg, select_joinedQueue hq hg⟩

end Sys2Proof.Proofs

/-! How a step ends (R97, R158, R178): it changes nothing, it drives the outputs, or it resets the part; and O4, by what each
of these ends does to outputs that follow their conditions. -/

namespace Sys2Proof.Proofs

open Sys2Proof.Machine Sys2Proof.Safety Sys2Proof.Laws

/-! ### Pins as they are driven -/

/-- Pins at the levels that the part drives follow R96, R159 and R154. -/
theorem pinsDriven_of_drivenPins {s : State} (h : s.pins = drivenPins s) : PinsDriven s where
  permit st := by
    rw [h, ← permitLevel_iff, drivenPins, Fin.getElem_fin, Vector.getElem_ofFn]
  lamp st := by
    rw [h, ← lampLevel_iff, drivenPins, Fin.getElem_fin, Vector.getElem_ofFn]
  nATTN := by
    rw [h, ← nATTNLevel_iff, drivenPins]

/-- The end of a step drives the pins from the state that it leaves: no level depends on a pin. -/
theorem commit_pinsDriven (s a : State) : PinsDriven (commit s a) := pinsDriven_of_drivenPins rfl

/-- After a reset the pins are where the part drives them, whatever the cause and the level of nRST. -/
theorem resetTo_pinsDriven (s : State) (cause : ResetCause) (nRST : Bool) : PinsDriven (resetTo s cause nRST) := by
  have hreset : State.reset.pins = drivenPins State.reset := by decide
  exact pinsDriven_of_drivenPins hreset

/-! ### How a step ends -/

/-- What a row can leave of the state `s`: the state itself, a state at whose end the outputs were driven, or a reset. -/
inductive StepEnd (s : State) : State → Prop where
  | idle : StepEnd s s
  | driven (before after : State) : StepEnd s (commit before after)
  | reset (cause : ResetCause) (nRST : Bool) : StepEnd s (resetTo s cause nRST)

theorem stepEnd_ite {s a b t : State} {c : Bool} (ha : StepEnd s a) (hb : StepEnd s b)
    (h : (.next (if c then a else b) : Host.Outcome State Fault Refusal) = .next t) : StepEnd s t := by
  obtain rfl := Host.Outcome.next.inj h
  split
  · exact ha
  · exact hb

theorem whenRunning_stepEnd {s t : State} {f : State → State} (h : whenRunning s f = .next t) : StepEnd s t :=
  stepEnd_ite (.driven s (f s)) .idle h

/-- Every row ends in one of the three ways: the resets and the tick on their own terms, every other row as `whenRunning`
says. -/
theorem exec_stepEnd {i : Instr} {s t : State} (h : exec i s = .next t) : StepEnd s t := by
  cases i with
  | tick x => exact stepEnd_ite (.driven (settle s) (tickBody x (settle s))) .idle h
  | restart => exact stepEnd_ite (.reset .restart true) .idle h
  | powerOn n => exact Host.Outcome.next.inj h ▸ .reset .power n
  | nrstLow => exact stepEnd_ite (.reset .pin false) .idle h
  | nrstHigh => exact stepEnd_ite .idle (.reset s.link.cause true) h
  | _ => exact whenRunning_stepEnd h

/-- Outputs that follow their conditions go on following them, however the step ends. -/
theorem StepEnd.pinsDriven {s t : State} (h : StepEnd s t) (hs : PinsDriven s) : PinsDriven t := by
  cases h with
  | idle => exact hs
  | driven before after => exact commit_pinsDriven before after
  | reset cause nRST => exact resetTo_pinsDriven s cause nRST

/-- No output depends on what waits in the queue. -/
theorem pinsDriven_dequeue {s : State} (h : PinsDriven s) (rest : List Instr) :
    PinsDriven { s with pending := rest } := ⟨h.permit, h.lamp, h.nATTN⟩

/-- Settles O4: on an empty queue nothing changes, and the row at its front ends in one of the three ways. -/
theorem everyStepDrivesOutputs : Obligations.EveryStepDrivesOutputs := by
  intro s t hs h
  unfold step at h
  split at h
  case h_1 => exact Host.Outcome.next.inj h ▸ hs
  case h_2 i rest _ => exact (exec_stepEnd h).pinsDriven (pinsDriven_dequeue hs rest)

end Sys2Proof.Proofs

/-! BIND (R77) and UNBIND (R78): what leaving service and the wait queue do to a seat that is unbound, what each command
answers by the state of the seat, and O31 from these. -/

namespace Sys2Proof.Proofs

open Sys2Proof.Machine Sys2Proof.Safety Sys2Proof.Laws

/-! ### A seat out of service, with no tool or with no cut -/

/-- A cut that closes at a seat without a tool is charged to nothing. -/
theorem closeCut_of_vacant {s : State} {w : WheelNo} (h : s.holder (seatOfWheel w) = none) :
    closeCut s w = (s.setWheel w { s.wheels[w] with accumulator := 0, cutTimer := none }, false) := by
  have hmounted : (s.setWheel w { s.wheels[w] with accumulator := 0, cutTimer := none }).mountedAt (seatOfWheel w)
      = none := by
    simp only [State.mountedAt, holder_congr_table (setWheel_table s w _), h]
  simp only [closeCut, hmounted]

theorem abortCheck_table (s : State) (w : WheelNo) : (abortCheck s w).table = s.table := by
  rw [abortCheck_eq, setWheel_table, raiseIf_table]

/-- A seat without a tool leaves the table as it is when it leaves service, a cut open on it or not. -/
theorem leaveService_table_of_vacant {s : State} {q : SeatNo} (h : s.holder q = none) :
    (leaveService s q).table = s.table := by
  unfold leaveService
  split
  case h_1 w hw =>
    obtain rfl := wheelOf_some hw
    simp only [stopFilters, setWheel_table, abortCheck_table]
    split
    · rw [closeCut_of_vacant h, setWheel_table]
    · rfl
  case h_2 => rfl

/-! ### The wait queue -/

theorem leaveQueue_of_bound {s : State} {q : SeatNo} {g : GroupNo} {grp : Group} (hq : s.seats[q].group = some g)
    (hg : s.groups[g] = some grp) :
    leaveQueue s q = s.setGroup g (some { grp with queue := grp.queue.filter (· != q) }) := by
  simp only [leaveQueue, hq, hg]

theorem setGroup_self {s : State} {g : GroupNo} {x : Option Group} (h : s.groups[g] = x) : s.setGroup g x = s := by
  subst h
  simp only [State.setGroup, Fin.getElem_fin, Vector.set_getElem_self]

theorem leaveQueue_of_not_queued {s : State} {q : SeatNo} {g : GroupNo} {grp : Group} (hq : s.seats[q].group = some g)
    (hg : s.groups[g] = some grp) (hn : q ∉ grp.queue) : leaveQueue s q = s := by
  have hfilter : grp.queue.filter (· != q) = grp.queue :=
    List.filter_eq_self.2 fun p hp => bne_iff_ne.2 fun h => hn (h ▸ hp)
  rw [leaveQueue_of_bound hq hg, hfilter, setGroup_self hg]

/-! ### The tool given back -/

theorem returnRecord_of {s : State} {r : ToolRecord} (h : r.state = .active ∨ r.state = .chosen) :
    returnRecord s r =
      inform (s.putRecord { r with state := if HasEnd r then .spent else .available, seat := none }) r.number := by
  rcases h with h | h <;> simp only [returnRecord, h, ended_isEmpty_iff, ite_not]

/-! ### The steps of UNBIND -/

theorem unbindSeat_of_vacant {s : State} {q : SeatNo} {g : GroupNo} {grp : Group} (hh : s.holder q = none)
    (hq : s.seats[q].group = some g) (hg : s.groups[g] = some grp) :
    unbindSeat s q = ((leaveService s q).setGroup g (some { grp with queue := grp.queue.filter (· != q) })).setSeat q
      { service := .unbound, group := none } := by
  have hqueue := leaveQueue_of_bound (s := leaveService s q) (by rw [leaveService_seats, hq])
    (by rw [leaveService_groups, hg])
  have hvacant : (((leaveService s q).setGroup g (some { grp with queue := grp.queue.filter (· != q) })).setSeat q
      { service := .unbound, group := none }).holder q = none :=
    (holder_congr_table (leaveService_table_of_vacant hh) q).trans hh
  simp only [unbindSeat, hqueue, hvacant]

theorem unbindSeat_of_holder {s : State} {q : SeatNo} {g : GroupNo} {grp : Group} {r : ToolRecord}
    (hc : s.cutOpenAt q = false) (hh : s.holder q = some r) (hq : s.seats[q].group = some g)
    (hg : s.groups[g] = some grp) (hn : q ∉ grp.queue) :
    unbindSeat s q = returnRecord ((leaveService s q).setSeat q { service := .unbound, group := none }) r := by
  have hqueue := leaveQueue_of_not_queued (s := leaveService s q) (by rw [leaveService_seats, hq])
    (by rw [leaveService_groups, hg]) hn
  have hholder : ((leaveService s q).setSeat q { service := .unbound, group := none }).holder q = some r :=
    (holder_congr_table (leaveService_table s q hc) q).trans hh
  simp only [unbindSeat, hqueue, hholder]

/-! ### UNBIND, by the state of the seat -/

section Unbind

variable {seat : Byte} {s : State} {q : SeatNo} (hq : seat.toNat = q.val)
include hq

theorem unbindCommand_of_unbound (hs : s.seats[q].service = .unbound) : unbindCommand seat s = (s, done) := by
  simp only [unbindCommand, seatArg_of_toNat hq, hs, reply_done]

theorem unbindCommand_of_halted (hs : s.seats[q].service = .halted) : unbindCommand seat s = (s, reply .inUse) := by
  simp only [unbindCommand, seatArg_of_toNat hq, hs]

theorem unbindCommand_of_cutting (hs : InService s q) (hc : s.cutOpenAt q = true) :
    unbindCommand seat s = (s, reply .inUse) := by
  rcases hs with hs | hs <;> simp only [unbindCommand, seatArg_of_toNat hq, hs, if_pos hc]

theorem unbindCommand_of_out_of_service (hs : s.seats[q].service = .waiting ∨ s.seats[q].service = .changing) :
    unbindCommand seat s = (unbindSeat s q, done) := by
  rcases hs with hs | hs <;> simp only [unbindCommand, seatArg_of_toNat hq, hs, reply_done]

theorem unbindCommand_of_uncut (hs : InService s q) (hc : s.cutOpenAt q = false) :
    unbindCommand seat s = (unbindSeat s q, done) := by
  rcases hs with hs | hs <;>
    simp only [unbindCommand, seatArg_of_toNat hq, hs, hc, Bool.false_eq_true, if_false, reply_done]

end Unbind

/-! ### BIND -/

/-- A BIND whose checks all pass binds the seat and runs selection for it. -/
theorem bindCommand_of_accepted {seat group : Byte} {s : State} {q : SeatNo} {g : GroupNo} {grp : Group}
    (hq : seat.toNat = q.val) (hg : group.toNat = g.val) (hs : s.seats[q].service = .unbound)
    (hgrp : s.groups[g] = some grp) (hk : grp.kind = .wheel ↔ q.val % 4 < 2) :
    bindCommand seat group s = (select (s.setSeat q { service := .unbound, group := some g }) q none, done) := by
  have hkind : ¬ grp.kind ≠ seatKind q := not_not.2 ((kind_eq_iff grp.kind q).2 hk)
  simp only [bindCommand, seatArg_of_toNat hq, groupArg_of_toNat hg, hs, ne_eq, not_true_eq_false, if_false, hgrp,
    if_neg hkind, reply_done]

/-- Settles O31: BIND with its checks passed, then UNBIND by the state of the seat and, where a tool is given back, by
what holds the seat. -/
theorem bindAndUnbind : Obligations.BindAndUnbind := by
  refine ⟨fun seat group s q g grp h hq hg hs hgrp hk => ?bind,
    fun seat s q h hq => ⟨fun hs => ?unbound, fun hs => ?halted, fun hs hc => ?cutting, fun g grp hs hh hsg hg => ?waiting,
      fun g grp r hs hh hsg hg hn => ?returned⟩⟩
  case bind => exact completesAs_of h (exec_bind s seat group) (bindCommand_of_accepted hq hg hs hgrp hk)
  case unbound => exact completesAs_of h (exec_unbind s seat) (unbindCommand_of_unbound hq hs)
  case halted => exact answers_of h (exec_unbind s seat) (unbindCommand_of_halted hq hs)
  case cutting => exact answers_of h (exec_unbind s seat) (unbindCommand_of_cutting hq hs hc)
  case waiting =>
    rw [← unbindSeat_of_vacant hh hsg hg]
    exact completesAs_of h (exec_unbind s seat) (unbindCommand_of_out_of_service hq (.inl hs))
  case returned =>
    obtain ⟨hs, hc, hr⟩ | ⟨hs, hc, hr⟩ := hs
    · rw [← returnRecord_of (.inl hr), ← unbindSeat_of_holder hc hh hsg hg hn]
      exact completesAs_of h (exec_unbind s seat) (unbindCommand_of_uncut hq hs hc)
    · rw [← returnRecord_of (.inr hr), ← unbindSeat_of_holder hc hh hsg hg hn]
      exact completesAs_of h (exec_unbind s seat) (unbindCommand_of_out_of_service hq (.inr hs))

end Sys2Proof.Proofs

/-! The checks of BIND (R76), MOUNT (R107) and SWAP (R112): what each command answers when a check fails, and O32 from
these. -/

namespace Sys2Proof.Proofs

open Sys2Proof.Machine Sys2Proof.Safety Sys2Proof.Laws

/-! ### BIND -/

section Bind

variable {seat group : Byte} {s : State} {q : SeatNo} {g : GroupNo} {grp : Group}

theorem bindCommand_bad_arg (h : seat.toNat > 15 ∨ group.toNat > 31) :
    bindCommand seat group s = (s, reply .badArg) := by
  have harg : seatArg seat = none ∨ groupArg group = none := h.imp seatArg_gt groupArg_gt
  unfold bindCommand
  split
  · next hq hg => simp only [hq, hg, reduceCtorEq, or_self] at harg
  · rfl

variable (hq : seat.toNat = q.val) (hg : group.toNat = g.val)
include hq hg

theorem bindCommand_of_bound (hs : s.seats[q].service ≠ .unbound) :
    bindCommand seat group s = (s, reply .badState) := by
  simp only [bindCommand, seatArg_of_toNat hq, groupArg_of_toNat hg, if_pos hs]

theorem bindCommand_no_group (hs : s.seats[q].service = .unbound) (hgrp : s.groups[g] = none) :
    bindCommand seat group s = (s, reply .noGroup) := by
  simp only [bindCommand, seatArg_of_toNat hq, groupArg_of_toNat hg, hs, ne_eq, not_true_eq_false, if_false, hgrp]

theorem bindCommand_wrong_kind (hs : s.seats[q].service = .unbound) (hgrp : s.groups[g] = some grp)
    (hk : ¬ (grp.kind = .wheel ↔ q.val % 4 < 2)) : bindCommand seat group s = (s, reply .wrongKind) := by
  have hkind : grp.kind ≠ seatKind q := fun h => hk ((kind_eq_iff grp.kind q).1 h)
  simp only [bindCommand, seatArg_of_toNat hq, groupArg_of_toNat hg, hs, ne_eq, not_true_eq_false, if_false, hgrp,
    if_pos hkind]

end Bind

theorem bindCommand_refuses {seat group : Byte} {s : State} {c : ReplyCode}
    (hc : FirstFailing [(seat.toNat > 15 ∨ group.toNat > 31, .badArg),
      (∃ q : SeatNo, seat.toNat = q.val ∧ s.seats[q].service ≠ .unbound, .badState),
      (∃ g : GroupNo, group.toNat = g.val ∧ s.groups[g] = none, .noGroup),
      (∃ (g : GroupNo) (grp : Group), group.toNat = g.val ∧ s.groups[g] = some grp
        ∧ ¬ (grp.kind = .wheel ↔ seat.toNat % 4 < 2), .wrongKind)] c) :
    bindCommand seat group s = (s, reply c) := by
  obtain ⟨hbad, rfl⟩ | ⟨hok, hc⟩ := hc
  · exact bindCommand_bad_arg hbad
  obtain ⟨hseat, hgroup⟩ := not_or.1 hok
  obtain ⟨q, hq⟩ := seatArg_le hseat
  obtain ⟨g, hg⟩ := groupArg_le hgroup
  -- With the seat and the group at hand, the checks that are left speak of them alone.
  simp only [FirstFailing, hq, hg, ← Fin.ext_iff, exists_and_left, exists_eq_left'] at hc
  obtain ⟨hs, rfl⟩ | ⟨hs, ⟨hgrp, rfl⟩ | ⟨_, ⟨⟨grp, hgrp, hk⟩, rfl⟩ | ⟨_, hnone⟩⟩⟩ := hc
  · exact bindCommand_of_bound hq hg hs
  · exact bindCommand_no_group hq hg (not_not.1 hs) hgrp
  · exact bindCommand_wrong_kind hq hg (not_not.1 hs) hgrp hk
  · exact hnone.elim

/-! ### MOUNT -/

section Mount

variable {seat : Byte} {tool : Half} {s : State} {q : SeatNo} {r : ToolRecord}

theorem mountCommand_bad_arg (h : seat.toNat > 15 ∨ tool = 0 ∨ tool = 0xFFFF) :
    mountCommand seat tool s = (s, reply .badArg) := by
  have harg : seatArg seat = none ∨ toolArg tool = none := h.imp seatArg_gt toolArg_bad
  unfold mountCommand
  split
  · next hq ht => simp only [hq, ht, reduceCtorEq, or_self] at harg
  · rfl

variable (hq : seat.toNat = q.val) (h0 : tool ≠ 0) (h1 : tool ≠ 0xFFFF)
include hq h0 h1

theorem mountCommand_not_changing (hs : s.seats[q].service ≠ .changing) :
    mountCommand seat tool s = (s, reply .badState) := by
  simp only [mountCommand, seatArg_of_toNat hq, toolArg_ne h0 h1, if_pos hs]

theorem mountCommand_unknown (hs : s.seats[q].service = .changing) (hf : s.find tool.toNat = none) :
    mountCommand seat tool s = (s, reply .unknownTool) := by
  simp only [mountCommand, seatArg_of_toNat hq, toolArg_ne h0 h1, hs, ne_eq, not_true_eq_false, if_false, hf]

/-- A tool that is neither the seat's chosen record nor an eligible member of the seat's group. -/
theorem mountCommand_not_eligible (hs : s.seats[q].service = .changing) (hf : s.find tool.toNat = some r)
    (hchosen : ¬ (r.state = .chosen ∧ r.seat = some q))
    (hsister : ¬ (r.state = .available ∧ r.group ≠ none ∧ r.group = s.seats[q].group ∧ ¬ HasEnd r)) :
    mountCommand seat tool s = (s, reply .notEligible) := by
  cases hg : s.seats[q].group with
  | none =>
    simp only [mountCommand, seatArg_of_toNat hq, toolArg_ne h0 h1, hs, ne_eq, not_true_eq_false, if_false, hf,
      if_neg hchosen, hg]
  | some g =>
    have helig : ¬ r.eligibleIn g = true := fun h => by
      obtain ⟨hav, hgroup, hend⟩ := (eligibleIn_iff r g).1 h
      exact hsister ⟨hav, by simp only [hgroup, ne_eq, reduceCtorEq, not_false_eq_true], hgroup.trans hg.symm, hend⟩
    simp only [mountCommand, seatArg_of_toNat hq, toolArg_ne h0 h1, hs, ne_eq, not_true_eq_false, if_false, hf,
      if_neg hchosen, hg, if_neg helig]

end Mount

theorem mountCommand_refuses {seat : Byte} {tool : Half} {s : State} {c : ReplyCode}
    (hc : FirstFailing [(seat.toNat > 15 ∨ tool = 0 ∨ tool = 0xFFFF, .badArg),
      (∃ q : SeatNo, seat.toNat = q.val ∧ s.seats[q].service ≠ .changing, .badState),
      (s.find tool.toNat = none, .unknownTool),
      (∃ (q : SeatNo) (r : ToolRecord), seat.toNat = q.val ∧ s.find tool.toNat = some r
        ∧ ¬ (r.state = .chosen ∧ r.seat = some q)
        ∧ ¬ (r.state = .available ∧ r.group ≠ none ∧ r.group = s.seats[q].group ∧ ¬ HasEnd r), .notEligible)] c) :
    mountCommand seat tool s = (s, reply c) := by
  obtain ⟨hbad, rfl⟩ | ⟨hok, hc⟩ := hc
  · exact mountCommand_bad_arg hbad
  obtain ⟨hseat, htool⟩ := not_or.1 hok
  obtain ⟨h0, h1⟩ := not_or.1 htool
  obtain ⟨q, hq⟩ := seatArg_le hseat
  simp only [FirstFailing, hq, ← Fin.ext_iff, exists_and_left, exists_eq_left'] at hc
  obtain ⟨hs, rfl⟩ | ⟨hs, ⟨hf, rfl⟩ | ⟨_, ⟨⟨r, hf, hchosen, hsister⟩, rfl⟩ | ⟨_, hnone⟩⟩⟩ := hc
  · exact mountCommand_not_changing hq h0 h1 hs
  · exact mountCommand_unknown hq h0 h1 (not_not.1 hs) hf
  · exact mountCommand_not_eligible hq h0 h1 (not_not.1 hs) hf hchosen hsister
  · exact hnone.elim

/-! ### SWAP -/

/-- A cut is open on a seat when the seat is a wheel seat and its phase is ENGAGE or CUT. -/
theorem cutOpenAt_iff (s : State) (q : SeatNo) :
    s.cutOpenAt q = true ↔ ∃ w, q = seatOfWheel w ∧ CutOpen s w := by
  unfold State.cutOpenAt
  split
  case h_1 w hw =>
    obtain rfl := wheelOf_some hw
    rw [cutOpen_iff]
    exact ⟨fun h => ⟨w, rfl, h⟩, fun ⟨v, hv, h⟩ => seatOfWheel_injective hv ▸ h⟩
  case h_2 hw =>
    refine ⟨fun h => absurd h Bool.false_ne_true, fun ⟨w, hqw, _⟩ => ?_⟩
    rw [hqw, wheelOf_seatOfWheel] at hw
    exact absurd hw (Option.some_ne_none w)

/-- A seat has a sister when its group is defined and one of the members is eligible. -/
theorem seatHasSister_iff (s : State) (q : SeatNo) :
    s.seatHasSister q = true ↔ ∃ g grp, s.seats[q].group = some g ∧ s.groups[g] = some grp
      ∧ ∃ n ∈ grp.members, s.eligible g n = true := by
  unfold State.seatHasSister
  cases hq : s.seats[q].group with
  | none => simp only [Bool.false_eq_true, reduceCtorEq, false_and, exists_false]
  | some g =>
    cases hg : s.groups[g] with
    | none => simp only [State.hasEligible, hg, Option.some.injEq, exists_and_left, exists_eq_left', reduceCtorEq,
        Bool.false_eq_true, false_and, exists_false]
    | some grp => simp only [hasEligible_iff s g grp hg, hg, Option.some.injEq, exists_and_left, exists_eq_left']

section Swap

variable {seat : Byte} {s : State} {q : SeatNo}

theorem swapCommand_bad_arg (h : seat.toNat > 15) : swapCommand seat s = (s, reply .badArg) := by
  simp only [swapCommand, seatArg_gt h]

/-- The checks that are left once the seat is found. -/
theorem swapCommand_of_seat (hq : seat.toNat = q.val) :
    swapCommand seat s =
      if ¬ InService s q then (s, reply .badState)
      else if ∃ w, q = seatOfWheel w ∧ CutOpen s w then (s, reply .inUse)
      else if ¬ s.seatHasSister q = true then (s, reply .notEligible)
      else (swapSeat s q, reply .done) := by
  simp only [swapCommand, seatArg_of_toNat hq, Bool.not_eq_true', ← Bool.not_eq_true, inService_iff, cutOpenAt_iff]

end Swap

theorem swapCommand_refuses {seat : Byte} {s : State} {c : ReplyCode}
    (hc : FirstFailing [(seat.toNat > 15, .badArg),
      (∃ q : SeatNo, seat.toNat = q.val ∧ ¬ InService s q, .badState),
      (∃ (q : SeatNo) (w : WheelNo), seat.toNat = q.val ∧ q = seatOfWheel w ∧ CutOpen s w, .inUse),
      (∃ (q : SeatNo), seat.toNat = q.val ∧ ∀ g grp, s.seats[q].group = some g → s.groups[g] = some grp →
        ∀ n ∈ grp.members, s.eligible g n = false, .notEligible)] c) :
    swapCommand seat s = (s, reply c) := by
  obtain ⟨hbad, rfl⟩ | ⟨hseat, hc⟩ := hc
  · exact swapCommand_bad_arg hbad
  obtain ⟨q, hq⟩ := seatArg_le hseat
  rw [swapCommand_of_seat hq]
  simp only [FirstFailing, hq, ← Fin.ext_iff, exists_and_left, exists_eq_left'] at hc
  obtain ⟨hs, rfl⟩ | ⟨hs, ⟨hcut, rfl⟩ | ⟨hcut, ⟨hnone, rfl⟩ | ⟨_, hend⟩⟩⟩ := hc
  · rw [if_pos hs]
  · rw [if_neg hs, if_pos hcut]
  · have hsister : ¬ s.seatHasSister q = true := fun h => by
      obtain ⟨g, grp, hg, hgrp, n, hn, he⟩ := (seatHasSister_iff s q).1 h
      exact Bool.false_ne_true ((hnone g grp hg hgrp n hn).symm.trans he)
    rw [if_neg hs, if_neg hcut, if_pos hsister]
  · exact hend.elim

/-- Settles O32: each command's own function refuses at the first check that fails. -/
theorem seatCommandChecks : Obligations.SeatCommandChecks := by
  refine ⟨fun seat group s c h hc => ?bind, fun seat tool s c h hc => ?mount, fun seat s c h hc => ?swap⟩
  case bind => exact answers_of h (exec_bind s seat group) (bindCommand_refuses hc)
  case mount => exact answers_of h (exec_mount s seat tool) (mountCommand_refuses hc)
  case swap => exact answers_of h (exec_swap s seat) (swapCommand_refuses hc)

end Sys2Proof.Proofs

/-! READ LOAD (R125) and SET SENSE (R123): what each answers to a channel, the averaging count that SET SENSE writes, and
O42 from these. -/

namespace Sys2Proof.Proofs

open Sys2Proof.Machine Sys2Proof.Safety Sys2Proof.Laws

/-! ### The channel -/

theorem channelArg_gt {b : Byte} (h : b.toNat > 8) : channelArg b = none :=
  channelArg_eq_none (decide_eq_false (by omega))

theorem readLoadCommand_bad_channel {channel : Byte} {s : State} (h : channel.toNat > 8) :
    readLoadCommand channel s = (s, reply .badArg) := by
  simp only [readLoadCommand, channelArg_gt h]

theorem setSenseCommand_bad_channel {channel count : Byte} {s : State} (h : channel.toNat > 8) :
    setSenseCommand channel count s = (s, reply .badArg) := by
  simp only [setSenseCommand, channelArg_gt h]

/-! ### The load report -/

/-- A byte that carries a number is that number as one byte of a report. -/
theorem byte1_of_toNat {b : Byte} {n : Nat} (h : b.toNat = n) : byte1 n = [b] := by
  rw [byte1, ← h, BitVec.ofNat_toNat, BitVec.setWidth_eq]

theorem byte1_toNat_bool (f : Bool) : byte1 f.toNat = [if f then 1 else 0] := by
  cases f <;> rfl

theorem readLoadCommand_of_channel {channel : Byte} {c : ChannelNo} {s : State} (h : channel.toNat = c.val) :
    readLoadCommand channel s = (s.setChannel c { s.scan.channels[c] with fresh := false },
      { code := .done, data := [channel] ++ byte2 s.scan.channels[c].average
          ++ [if s.scan.channels[c].fresh then 1 else 0] ++ byte1 s.scan.channels[c].count }) := by
  simp only [readLoadCommand, channelArg_of_toNat h, report, loadReport, byte1_of_toNat h, byte1_toNat_bool]

/-! ### The averaging count -/

theorem setSenseCommand_of_channel {channel count : Byte} {c : ChannelNo} {s : State} (h : channel.toNat = c.val) :
    setSenseCommand channel count s =
      (s.setChannel c { s.scan.channels[c] with count := countArg count, sum := 0, held := 0 }, done) := by
  simp only [setSenseCommand, channelArg_of_toNat h, reply_done]

/-- Above the range the count is the greatest of it. -/
theorem countArg_gt {b : Byte} (h : b.toNat > 128) : countArg b = 128 := by
  unfold countArg
  dsimp only
  iterate 7 rw [if_neg (by omega)]

/-- In the range the count is the greatest averaging count that is not above the one carried. -/
theorem countArg_greatest {b : Byte} (hlo : 1 ≤ b.toNat) (hhi : b.toNat ≤ 128) :
    countArg b ∈ averagingCounts ∧ countArg b ≤ b.toNat ∧ b.toNat < 2 * countArg b := by
  unfold countArg
  dsimp only
  split_ifs <;> exact ⟨by decide, by omega, by omega⟩

/-- Settles O42: a channel beyond REF is refused, and at a channel each command's own function says what it writes and
answers. -/
theorem readLoadAndSetSense : Obligations.ReadLoadAndSetSense := by
  refine ⟨fun channel count s hbad => ⟨fun h => ?readBad, fun h => ?setBad⟩,
    fun channel count c s hc => ⟨fun h => ?read, fun h => ⟨countArg count, ?set, ?zero, countArg_gt, countArg_greatest⟩⟩⟩
  case readBad => exact answers_of h (exec_readLoad s channel) (readLoadCommand_bad_channel hbad)
  case setBad => exact answers_of h (exec_setSense s channel count) (setSenseCommand_bad_channel hbad)
  case read => exact completesAs_of h (exec_readLoad s channel) (readLoadCommand_of_channel hc)
  case set => exact completesAs_of h (exec_setSense s channel count) (setSenseCommand_of_channel hc)
  case zero => rintro rfl; rfl

end Sys2Proof.Proofs

/-! The reference monitor (R127) and the sense fault (R129): what a REF code does to the run count and the fault, what the
entry to sense fault does at every wheel seat, and O44 from these. -/

namespace Sys2Proof.Proofs

open Sys2Proof.Machine Sys2Proof.Safety Sys2Proof.Laws

/-! ### The end of a conversion of REF -/

/-- What is left of a REF conversion, once the block has taken the code, is the monitor's. -/
theorem exec_conversionEnd_ref {code : BitVec 10} {s : State} (hr : s.nRST = true) (hp : s.scan.pointer = 8) :
    exec (.conversionEnd code) s = .next (commit s (monitor (scanned s code.toNat) code.toNat)) := by
  rw [exec_conversionEnd, whenRunning_eq hr, convert_ref s code.toNat hp]

/-! ### The monitor, by whether the code speaks against the condition -/

section Monitor

variable {code : BitVec 10} {s : State}

/-- A code speaks against the condition when it is in band during sense fault or out of band outside it. -/
def SpeaksAgainst (code : BitVec 10) (s : State) : Prop := InBand code ↔ s.scan.fault = true

theorem speaksAgainst_of_no_fault (hf : s.scan.fault = false) : SpeaksAgainst code s ↔ ¬ InBand code := by
  rw [SpeaksAgainst, hf, eq_false Bool.false_ne_true, iff_false]

theorem speaksAgainst_of_fault (hf : s.scan.fault = true) : SpeaksAgainst code s ↔ InBand code := by
  rw [SpeaksAgainst, hf, eq_self, iff_true]

theorem inBand_beq_fault (code : BitVec 10) (s : State) :
    (inBand code.toNat == s.scan.fault) = true ↔ SpeaksAgainst code s := by
  rw [SpeaksAgainst, ← inBand_iff, beq_iff_eq, Bool.eq_iff_iff]

theorem monitor_of_agrees (h : ¬ SpeaksAgainst code s) :
    monitor s code.toNat = s.setScan { s.scan with run := 0 } := by
  rw [monitor, if_neg (mt (inBand_beq_fault code s).1 h)]

/-- The first two codes in a row against the condition are counted. -/
theorem monitor_of_few (h : SpeaksAgainst code s) (hrun : s.scan.run < 2) :
    monitor s code.toNat = s.setScan { s.scan with run := s.scan.run + 1 } := by
  rw [monitor, if_pos ((inBand_beq_fault code s).2 h), if_neg (by omega)]

/-- The third code in a row against the condition changes it. -/
theorem monitor_of_third (h : SpeaksAgainst code s) (hrun : s.scan.run ≥ 2) :
    monitor s code.toNat = if s.scan.fault then leaveFault s else enterFault s := by
  rw [monitor, if_pos ((inBand_beq_fault code s).2 h), if_pos hrun]

theorem enterFault_scan (s : State) : (enterFault s).scan = { s.scan with run := 0, fault := true } :=
  (enterFault_keepsRest s).scan

theorem leaveFault_scan (s : State) : (leaveFault s).scan = { s.scan with run := 0, fault := false } := rfl

/-- The third code in a row against the condition returns the run count to 0 and turns the fault. -/
theorem monitor_scan_of_third (h : SpeaksAgainst code s) (hrun : s.scan.run ≥ 2) :
    (monitor s code.toNat).scan = { s.scan with run := 0, fault := !s.scan.fault } := by
  rw [monitor_of_third h hrun]
  cases hf : s.scan.fault with
  | false => exact enterFault_scan s
  | true => exact leaveFault_scan s

/-- The monitor writes the run count alone, or enters sense fault, or leaves it. -/
theorem monitor_cases (code : BitVec 10) (s : State) :
    (∃ n, monitor s code.toNat = s.setScan { s.scan with run := n })
      ∨ (s.scan.fault = false ∧ monitor s code.toNat = enterFault s)
      ∨ (s.scan.fault = true ∧ monitor s code.toNat = leaveFault s) := by
  by_cases h : SpeaksAgainst code s
  · by_cases hrun : s.scan.run < 2
    · exact .inl ⟨_, monitor_of_few h hrun⟩
    · have hthird := monitor_of_third h (by omega)
      cases hf : s.scan.fault with
      | false => exact .inr (.inl ⟨rfl, by rw [hthird, hf]; rfl⟩)
      | true => exact .inr (.inr ⟨rfl, by rw [hthird, hf]; rfl⟩)
  · exact .inl ⟨_, monitor_of_agrees h⟩

end Monitor

/-! ### The entry to sense fault, at every wheel seat -/

section Fold

variable {σ α β : Type} {f : σ → α → σ} {view : σ → α → β} {g : β → β}

theorem foldl_view_of_notMem (hother : ∀ u x a, a ≠ x → view (f u x) a = view u a) {l : List α} {a : α} (h : a ∉ l)
    (u : σ) : view (l.foldl f u) a = view u a := by
  induction l generalizing u with
  | nil => rfl
  | cons x xs ih =>
    obtain ⟨hx, hxs⟩ := not_or.1 (mt List.mem_cons.2 h)
    rw [List.foldl_cons, ih hxs, hother u x a hx]

/-- A fold whose step at `x` acts on what is seen at `x` alone acts once on each element of a list without repeats. -/
theorem foldl_view_of_mem (hself : ∀ u x, view (f u x) x = g (view u x))
    (hother : ∀ u x a, a ≠ x → view (f u x) a = view u a) {l : List α} (hl : l.Nodup) {a : α} (h : a ∈ l) (u : σ) :
    view (l.foldl f u) a = g (view u a) := by
  induction l generalizing u with
  | nil => cases h
  | cons x xs ih =>
    obtain ⟨hx, hxs⟩ := List.nodup_cons.1 hl
    rw [List.foldl_cons]
    rcases List.mem_cons.1 h with rfl | ha
    · rw [foldl_view_of_notMem hother hx, hself]
    · rw [ih hxs ha, hother u x a (fun hax => hx (hax ▸ ha))]

end Fold

/-- A wheel seat as the entry to sense fault leaves it: no filter timer runs, and a check in flight has ended ABORTED. -/
def faulted (x : Wheel) : Wheel :=
  { x with
    loss := none, overload := none, contact := none, check := none
    lastResult := if x.check = none then x.lastResult else .aborted }

/-- What the entry to sense fault can write at a wheel seat: the wheel seat, and the flags of its seat. -/
def wheelAndFlags (s : State) (w : WheelNo) : Wheel × SeatFlags := (s.wheels[w], s.notices.seats[seatOfWheel w])

/-- The entry to sense fault at one wheel seat: CHECK is raised where a check was in flight. -/
def faultedWithFlags (p : Wheel × SeatFlags) : Wheel × SeatFlags :=
  (faulted p.1, { p.2 with check := p.2.check || p.1.check.isSome })

theorem raiseIf_flags_self (s : State) (p : Prop) [Decidable p] (q : SeatNo) (n : SeatNotice) :
    (raiseIf s p q n).notices.seats[q] = if p then s.notices.seats[q].raise n else s.notices.seats[q] := by
  by_cases h : p
  · rw [raiseIf_pos s q n h, if_pos h, raise_notices, Fin.getElem_fin, Vector.getElem_set_self]
  · rw [raiseIf_neg s q n h, if_neg h]

theorem raiseIf_flags_ne (s : State) (p : Prop) [Decidable p] {q r : SeatNo} (n : SeatNotice) (h : r ≠ q) :
    (raiseIf s p q n).notices.seats[r] = s.notices.seats[r] := by
  by_cases hp : p
  · rw [raiseIf_pos s q n hp, raise_notices]
    exact Vector.getElem_set_ne q.isLt r.isLt fun hqr => h (Fin.ext hqr.symm)
  · rw [raiseIf_neg s q n hp]

/-- CHECK raised where a check is in flight. -/
theorem raise_check_eq (c : Option ProbeCheck) (x : SeatFlags) :
    (if c ≠ none then x.raise .check else x) = { x with check := x.check || c.isSome } := by
  cases c with
  | none => simp only [ne_eq, not_true_eq_false, if_false, Option.isSome_none, Bool.or_false]
  | some c => simp only [ne_eq, reduceCtorEq, not_false_eq_true, if_true, SeatFlags.raise, Option.isSome_some,
      Bool.or_true]

theorem abortCheck_stopFilters_eq (s : State) (w : WheelNo) :
    abortCheck (stopFilters s w) w =
      (raiseIf s (s.wheels[w].check ≠ none) (seatOfWheel w) .check).setWheel w (faulted s.wheels[w]) := by
  rw [abortCheck_eq, stopFilters, setWheel_get, raiseIf_setWheel, setWheel_setWheel, faulted]

theorem wheelAndFlags_abort_self (s : State) (w : WheelNo) :
    wheelAndFlags (abortCheck (stopFilters s w) w) w = faultedWithFlags (wheelAndFlags s w) := by
  rw [abortCheck_stopFilters_eq, wheelAndFlags, setWheel_get, setWheel_notices, raiseIf_flags_self, raise_check_eq,
    wheelAndFlags, faultedWithFlags]

theorem wheelAndFlags_abort_ne (s : State) (w v : WheelNo) (h : v ≠ w) :
    wheelAndFlags (abortCheck (stopFilters s w) w) v = wheelAndFlags s v := by
  rw [abortCheck_stopFilters_eq, wheelAndFlags, setWheel_get_ne _ _ h, raiseIf_wheels, setWheel_notices,
    raiseIf_flags_ne _ _ _ (mt seatOfWheel_injective h), wheelAndFlags]

/-- The entry to sense fault reaches every wheel seat. -/
theorem wheelAndFlags_enterFault (s : State) (w : WheelNo) :
    wheelAndFlags (enterFault s) w = faultedWithFlags (wheelAndFlags s w) :=
  foldl_view_of_mem wheelAndFlags_abort_self wheelAndFlags_abort_ne (List.nodup_finRange 8) (List.mem_finRange w)
    (s.setScan { s.scan with run := 0, fault := true }).raiseSense

theorem enterFault_device (s : State) : (enterFault s).notices.device = { s.notices.device with sense := true } :=
  (enterFault_keepsRest s).device

/-! ### The two halves of the statement, for the part once the block has taken the code -/

/-- The run count and the fault, by what the code says and how many codes against the condition went before it. -/
theorem monitor_run_and_fault (code : BitVec 10) (s : State) :
    let t := monitor s code.toNat
    (s.scan.fault = false → ¬ InBand code → s.scan.run < 2 → t.scan.run = s.scan.run + 1 ∧ t.scan.fault = false)
      ∧ (s.scan.fault = false → InBand code → t.scan.run = 0 ∧ t.scan.fault = false)
      ∧ (s.scan.fault = false → ¬ InBand code → s.scan.run ≥ 2 → t.scan.run = 0 ∧ t.scan.fault = true)
      ∧ (s.scan.fault = true → InBand code → s.scan.run < 2 → t.scan.run = s.scan.run + 1 ∧ t.scan.fault = true)
      ∧ (s.scan.fault = true → ¬ InBand code → t.scan.run = 0 ∧ t.scan.fault = true)
      ∧ (s.scan.fault = true → InBand code → s.scan.run ≥ 2 → t.scan.run = 0 ∧ t.scan.fault = false) := by
  refine ⟨fun hf hb hrun => ?outFew, fun hf hb => ?inAgrees, fun hf hb hrun => ?outThird,
    fun hf hb hrun => ?inFew, fun hf hb => ?outAgrees, fun hf hb hrun => ?inThird⟩
  case outFew => rw [monitor_of_few ((speaksAgainst_of_no_fault hf).2 hb) hrun]; exact ⟨rfl, hf⟩
  case inAgrees => rw [monitor_of_agrees (mt (speaksAgainst_of_no_fault hf).1 (not_not.2 hb))]; exact ⟨rfl, hf⟩
  case outThird => rw [monitor_scan_of_third ((speaksAgainst_of_no_fault hf).2 hb) hrun, hf]; exact ⟨rfl, rfl⟩
  case inFew => rw [monitor_of_few ((speaksAgainst_of_fault hf).2 hb) hrun]; exact ⟨rfl, hf⟩
  case outAgrees => rw [monitor_of_agrees (mt (speaksAgainst_of_fault hf).1 hb)]; exact ⟨rfl, hf⟩
  case inThird => rw [monitor_scan_of_third ((speaksAgainst_of_fault hf).2 hb) hrun, hf]; exact ⟨rfl, rfl⟩

/-- The notices and the wheel seats, by what has become of the fault. -/
theorem monitor_notices_and_wheels (code : BitVec 10) (s : State) :
    let t := monitor s code.toNat
    (s.scan.fault = false → t.scan.fault = true →
        t.notices.device = { s.notices.device with sense := true }
        ∧ ∀ w : WheelNo, wheelAndFlags t w = faultedWithFlags (wheelAndFlags s w))
      ∧ (s.scan.fault = true → t.scan.fault = false →
        t.notices = { s.notices with device := { s.notices.device with sense := true } } ∧ t.wheels = s.wheels)
      ∧ (s.scan.fault = t.scan.fault → t.notices = s.notices ∧ t.wheels = s.wheels) := by
  dsimp only
  obtain ⟨n, h⟩ | ⟨hf, h⟩ | ⟨hf, h⟩ := monitor_cases code s
  · rw [h, setScan_scan]
    exact ⟨fun h0 h1 => absurd (h0.symm.trans h1) Bool.false_ne_true,
      fun h1 h0 => absurd (h0.symm.trans h1) Bool.false_ne_true, fun _ => ⟨rfl, rfl⟩⟩
  · rw [h, enterFault_scan, hf]
    exact ⟨fun _ _ => ⟨enterFault_device s, wheelAndFlags_enterFault s⟩,
      fun h1 => absurd h1 Bool.false_ne_true, fun h1 => absurd h1 Bool.false_ne_true⟩
  · rw [h, leaveFault_scan, hf]
    exact ⟨fun h0 => absurd h0.symm Bool.false_ne_true, fun _ _ => ⟨rfl, rfl⟩,
      fun h0 => absurd h0.symm Bool.false_ne_true⟩

/-- Settles O44: a REF conversion is the monitor's step once the block has taken the code, and neither the block nor the
end of the step touches the run count, the fault, the wheel seats or the notices. -/
theorem referenceMonitorAndSenseFault : Obligations.ReferenceMonitorAndSenseFault := by
  refine ⟨fun code s hr hp => ⟨_, exec_conversionEnd_ref hr hp, Iff.rfl, ?runAndFault⟩,
    fun code s t hr hp ht => ?noticesAndWheels⟩
  case runAndFault => exact monitor_run_and_fault code (scanned s code.toNat)
  case noticesAndWheels =>
    obtain rfl := Host.Outcome.next.inj ((exec_conversionEnd_ref hr hp).symm.trans ht)
    obtain ⟨hentry, hexit, hsame⟩ := monitor_notices_and_wheels code (scanned s code.toNat)
    refine ⟨fun h0 h1 => ?_, hexit, hsame⟩
    obtain ⟨hdevice, hwheels⟩ := hentry h0 h1
    exact ⟨hdevice, fun w => Prod.ext_iff.1 (hwheels w)⟩

end Sys2Proof.Proofs

/-! TAKE NOTICES (R155): what each byte of the snapshot shows, what the command leaves of the part, and O53 from these. -/

namespace Sys2Proof.Proofs

open Sys2Proof.Machine Sys2Proof.Safety Sys2Proof.Laws

/-! ### A seat's byte -/

section SeatByte

variable (q : SeatNo) (f : SeatFlags)

/-- The byte shows the flags in their order; those of a breakage check show at a wheel seat alone. -/
theorem seatFlagsByte_bit : ∀ i, i < 8 → (seatFlagsByte q f).getLsbD i =
    [f.warn, f.spent, f.change, f.wait, decide (q.val % 4 < 2) && f.breakage, decide (q.val % 4 < 2) && f.check,
      decide (q.val % 4 < 2) && f.foreign, false].getD i false :=
  bits8_bit _ _ _ _ _ _ _ _

/-- Bit 7 is clear, and bits 0 to 3 show the notices that every seat has. -/
theorem seatFlagsByte_common :
    (seatFlagsByte q f).getLsbD 7 = false ∧ (seatFlagsByte q f).getLsbD 0 = f.warn
      ∧ (seatFlagsByte q f).getLsbD 1 = f.spent ∧ (seatFlagsByte q f).getLsbD 2 = f.change
      ∧ (seatFlagsByte q f).getLsbD 3 = f.wait :=
  have bit := seatFlagsByte_bit q f
  ⟨bit 7 (by decide), bit 0 (by decide), bit 1 (by decide), bit 2 (by decide), bit 3 (by decide)⟩

/-- Bits 4 to 6 show the notices that a wheel seat alone has. -/
theorem seatFlagsByte_wheelOnly :
    (seatFlagsByte q f).getLsbD 4 = (decide (q.val % 4 < 2) && f.breakage)
      ∧ (seatFlagsByte q f).getLsbD 5 = (decide (q.val % 4 < 2) && f.check)
      ∧ (seatFlagsByte q f).getLsbD 6 = (decide (q.val % 4 < 2) && f.foreign) :=
  have bit := seatFlagsByte_bit q f
  ⟨bit 4 (by decide), bit 5 (by decide), bit 6 (by decide)⟩

variable {q}

theorem seatFlagsByte_wheel (h : q.val % 4 < 2) :
    (seatFlagsByte q f).getLsbD 4 = f.breakage ∧ (seatFlagsByte q f).getLsbD 5 = f.check
      ∧ (seatFlagsByte q f).getLsbD 6 = f.foreign := by
  simpa only [h, decide_true, Bool.true_and] using seatFlagsByte_wheelOnly q f

theorem seatFlagsByte_dresser (h : q.val % 4 ≥ 2) :
    (seatFlagsByte q f).getLsbD 4 = false ∧ (seatFlagsByte q f).getLsbD 5 = false
      ∧ (seatFlagsByte q f).getLsbD 6 = false := by
  simpa only [Nat.not_lt.2 h, decide_false, Bool.false_and] using seatFlagsByte_wheelOnly q f

end SeatByte

/-! ### The device byte -/

/-- The last byte of the snapshot, as the notices report lays it out. -/
def deviceFlagsByte (d : DeviceFlags) : Byte := bits8 d.reset d.hold d.sense false false false false false

theorem deviceFlagsByte_shows (d : DeviceFlags) :
    (deviceFlagsByte d).getLsbD 0 = d.reset ∧ (deviceFlagsByte d).getLsbD 1 = d.hold
      ∧ (deviceFlagsByte d).getLsbD 2 = d.sense ∧ (deviceFlagsByte d).toNat < 8 := by
  obtain ⟨reset, hold, sense⟩ := d
  revert reset hold sense
  decide

/-! ### The snapshot -/

section Snapshot

variable (n : Notices)

/-- The snapshot is the sixteen seat bytes, in seat-number order, and then the device byte. -/
theorem noticesReport_eq :
    noticesReport n = ((List.finRange 16).map fun q => seatFlagsByte q n.seats[q]) ++ [deviceFlagsByte n.device] := rfl

theorem noticesReport_length : (noticesReport n).length = 17 := by
  rw [noticesReport_eq, List.length_append, List.length_map, List.length_finRange, List.length_singleton]

theorem noticesReport_seat (q : SeatNo) : (noticesReport n)[q.val]? = some (seatFlagsByte q n.seats[q]) := by
  have hq : q.val < ((List.finRange 16).map fun p => seatFlagsByte p n.seats[p]).length := by
    rw [List.length_map, List.length_finRange]
    exact q.isLt
  rw [noticesReport_eq, List.getElem?_append_left hq, List.getElem?_eq_getElem hq, List.getElem_map,
    List.getElem_finRange, Fin.cast_mk]

theorem noticesReport_device : (noticesReport n)[16]? = some (deviceFlagsByte n.device) := rfl

end Snapshot

/-! ### What the command leaves -/

/-- No flag of any seat is set once the notices are taken. -/
theorem taken_seat_any (n : Notices) (q : SeatNo) : n.taken.seats[q].any = false := by
  rw [Notices.taken, Fin.getElem_fin, Vector.getElem_replicate]
  rfl

theorem taken_any (n : Notices) : n.taken.any = false := by
  have hseats : ((List.finRange 16).any fun q => n.taken.seats[q].any) = false :=
    List.any_eq_false.2 fun q _ => Bool.eq_false_iff.1 (taken_seat_any n q)
  rw [Notices.any, hseats]
  rfl

/-- The part after TAKE NOTICES. -/
def noticesTaken (s : State) : State :=
  answer s (s.setNotices s.notices.taken) { code := .done, data := noticesReport s.notices }

theorem exec_takeNotices_of_ready {s : State} (h : Ready s .takeNotices) :
    exec .takeNotices s = .next (noticesTaken s) :=
  (exec_takeNotices s).trans (complete_eq h)

/-- With every flag clear nATTN goes high within the command. -/
theorem noticesTaken_nATTN (s : State) : (noticesTaken s).pins.nATTN = true :=
  congrArg (! ·) (taken_any s.notices)

/-- No lit condition begins: the services and the link's HOLD stand. -/
theorem noticesTaken_stations (s : State) : (noticesTaken s).stations = s.stations :=
  startStretch_congr rfl rfl

/-- Settles O53: the reply is the snapshot, byte by byte, the notice set is left clear, and the rest of the part stands. -/
theorem takeNoticesClearsTheSnapshot : Obligations.TakeNoticesClearsTheSnapshot := by
  intro s h
  refine ⟨noticesTaken s, noticesReport s.notices, exec_takeNotices_of_ready h, stored_answer _ _ _,
    noticesReport_length s.notices, taken_seat_any s.notices, rfl, noticesTaken_nATTN s, rfl, fun q => ?seat, ?device,
    rfl, rfl, rfl, rfl, noticesTaken_stations s, rfl, rfl⟩
  case seat =>
    obtain ⟨h7, h0, h1, h2, h3⟩ := seatFlagsByte_common q s.notices.seats[q]
    exact ⟨_, noticesReport_seat s.notices q, h7, h0, h1, h2, h3, seatFlagsByte_wheel _, seatFlagsByte_dresser _⟩
  case device => exact ⟨_, noticesReport_device s.notices, deviceFlagsByte_shows s.notices.device⟩

end Sys2Proof.Proofs

/-! SET LINK (R175) and RESUME (R176): the clamp of the two selectors, what restarting the watchdog writes, what each
command's own function leaves, and O60 from these. -/

namespace Sys2Proof.Proofs

open Sys2Proof.Machine Sys2Proof.Safety Sys2Proof.Laws

/-! ### The selectors -/

/-- A selector beyond the table names none of the rows before the last. -/
theorem selector_beyond {b : Byte} (h : b.toNat ≥ 3) : b ≠ 0 ∧ b ≠ 1 ∧ b ≠ 2 := by
  refine ⟨?_, ?_, ?_⟩ <;> rintro rfl <;> exact absurd h (by decide)

theorem periodArg_ge {b : Byte} (h : b.toNat ≥ 3) : periodArg b = .ms1000 := by
  obtain ⟨h0, h1, h2⟩ := selector_beyond h
  rw [periodArg, if_neg h0, if_neg h1, if_neg h2]

theorem stretchArg_ge {b : Byte} (h : b.toNat ≥ 3) : stretchArg b = .ms4000 := by
  obtain ⟨h0, h1, h2⟩ := selector_beyond h
  rw [stretchArg, if_neg h0, if_neg h1, if_neg h2]

/-! ### The watchdog's restart -/

/-- In HOLD the timer stays as it is; out of HOLD it stops under a period of OFF and otherwise starts at count 0. -/
theorem feed_eq (l : Link) :
    l.feed = { l with watchdog := if l.hold then l.watchdog else if l.period = .off then none else some 0 } := by
  unfold Link.feed
  by_cases hhold : l.hold = true
  · rw [if_pos hhold, if_pos hhold]
  · rw [if_neg hhold, if_neg hhold]

/-! ### The commands -/

/-- Both selected values are written, and the restart goes by the period just written. -/
theorem setLinkCommand_eq (watchdog stretch : Byte) (s : State) :
    setLinkCommand watchdog stretch s =
      ((s.setLink { s.link with
          period := periodArg watchdog
          watchdog := if s.link.hold then s.link.watchdog else if periodArg watchdog = .off then none else some 0 }).setNotices
        { s.notices with stretch := stretchArg stretch }, done) := by
  simp only [setLinkCommand, feed_eq, reply_done]

section Resume

variable {s : State}

theorem resumeCommand_of_running (h : s.link.hold = false) : resumeCommand s = (s, done) := by
  simp only [resumeCommand, h, Bool.false_eq_true, if_false, reply_done]

/-- HOLD is left before the watchdog is restarted, so that the restart finds the link out of HOLD. -/
theorem resumeCommand_of_hold (h : s.link.hold = true) :
    resumeCommand s =
      (s.setLink { s.link with hold := false, watchdog := if s.link.period = .off then none else some 0 }, done) := by
  simp only [resumeCommand, h, if_true, feed_eq, Bool.false_eq_true, if_false, reply_done]

end Resume

/-- Settles O60: the selectors give the rows of their table, and each command's own function says what it writes and
answers, in HOLD and out of it. -/
theorem setLinkAndResume : Obligations.SetLinkAndResume := by
  refine ⟨fun watchdog stretch s h => ⟨periodArg watchdog, stretchArg stretch, ?off, ?ms50, ?ms200, periodArg_ge,
      ?ms500, ?ms1000, ?ms2000, stretchArg_ge, ?setLink⟩,
    fun s h => ⟨fun hrun => ?running, fun hhold => ?hold⟩⟩
  case off | ms50 | ms200 | ms500 | ms1000 | ms2000 => rintro rfl; rfl
  case setLink => exact completesAs_of h (exec_setLink s watchdog stretch) (setLinkCommand_eq watchdog stretch s)
  case running => exact completesAs_of h (exec_resume s) (resumeCommand_of_running hrun)
  case hold => exact completesAs_of h (exec_resume s) (resumeCommand_of_hold hhold)

end Sys2Proof.Proofs

/-! How a row acts (R169, R178): the function of each command and of each event, the ways a row can end, and the induction
over the events that a tick finds standing. -/

namespace Sys2Proof.Proofs

open Sys2Proof.Machine Sys2Proof.Safety Sys2Proof.Laws

/-- The function of a command that completes with a reply; RESTART resets instead. -/
def commandOf : Instr → Option (State → State × Reply)
  | .enrol t k p m => some (enrolCommand t k p m)
  | .edit t a p m => some (editCommand t a p m)
  | .retire t => some (retireCommand t)
  | .query t => some (queryCommand t)
  | .next t => some (nextCommand t)
  | .lock t => some (lockCommand t)
  | .unlock t => some (unlockCommand t)
  | .define a => some (defineCommand a)
  | .link g t x => some (linkCommand g t x)
  | .unlink t => some (unlinkCommand t)
  | .group g => some (groupCommand g)
  | .bind q g => some (bindCommand q g)
  | .unbind q => some (unbindCommand q)
  | .mount q t => some (mountCommand q t)
  | .swap q => some (swapCommand q)
  | .whereSeat q => some (whereCommand q)
  | .release q => some (releaseCommand q)
  | .condemn q => some (condemnCommand q)
  | .check q lo hi d => some (checkCommand q lo hi d)
  | .dress q x => some (dressCommand q x)
  | .readLoad c => some (readLoadCommand c)
  | .setSense c n => some (setSenseCommand c n)
  | .takeNotices => some takeNoticesCommand
  | .setLink w x => some (setLinkCommand w x)
  | .resume => some resumeCommand
  | .ident => some identCommand
  | _ => none

/-- The effect of an event: of a frame at one of its moments, an edge, the end of a timer or of a conversion. -/
def eventOf : Instr → Option (State → State)
  | .statusFrame m a l => some (atMoment m id (endFrame a (takeStatus a l)))
  | .commandFrame m a l => some (atMoment m id (endFrame a (takeCommand a l)))
  | .fetchFrame m a l => some (atMoment m (formReply a l) (endFrame a (takeFetch a l)))
  | .frameOfNoKind m b => some (atMoment m id (takeNoKind b))
  | .cutRisingEdge w => some (takeCutRise w)
  | .cutFallingEdge w => some (takeCutFall w)
  | .partEnd st => some (takePartEnd st)
  | .engageDelayEnd w => some (takeEngageEnd w)
  | .blankingTimeEnd w => some (takeBlankingEnd w)
  | .filterTimerFires w k => some (takeFilter w k)
  | .overtime w => some (takeOvertime w)
  | .checkDurationEnd w => some (takeCheckEnd w)
  | .stretchTimerEnd st => some (takeStretchEnd st)
  | .watchdogExpiry => some takeExpiry
  | .conversionEnd c => some (convert c.toNat)
  | _ => none

/-- The rows that reset the part. -/
def IsReset (i : Instr) : Prop := i = .restart ∨ i = .nrstLow ∨ i = .nrstHigh ∨ ∃ n, i = .powerOn n

/-- What a row can leave of the state `s`. -/
inductive Acts (i : Instr) (s : State) : State → Prop where
  | idle : Acts i s s
  | waits (f : State → State × Reply) : commandOf i = some f → Acts i s (commit s s)
  | completes (f : State → State × Reply) : commandOf i = some f → Ready s i → Acts i s (answer s (f s).1 (f s).2)
  | takes (f : State → State) : eventOf i = some f → s.nRST = true → Acts i s (commit s (f s))
  | ticks (x : Samples) : i = .tick x → s.nRST = true → Acts i s (commit (settle s) (tickBody x (settle s)))
  | resets (cause : ResetCause) (nRST : Bool) : IsReset i → Acts i s (resetTo s cause nRST)

/-- A row with a command's function completes it, waits for the command in execution, or is held in reset. -/
theorem complete_acts {i : Instr} {f : State → State × Reply} {s t : State} (hf : commandOf i = some f)
    (h : complete i f s = .next t) : Acts i s t := by
  cases hn : s.nRST with
  | false =>
    rw [complete_held hn] at h
    exact Host.Outcome.next.inj h ▸ .idle
  | true =>
    cases hm : s.link.mayComplete i with
    | false =>
      rw [complete_waits hn hm] at h
      exact Host.Outcome.next.inj h ▸ .waits f hf
    | true =>
      rw [complete_eq ⟨hn, hm⟩] at h
      exact Host.Outcome.next.inj h ▸ .completes f hf ⟨hn, hm⟩

/-- A row with an event's effect takes it, or is held in reset. -/
theorem whenRunning_acts {i : Instr} {f : State → State} {s t : State} (hf : eventOf i = some f)
    (h : whenRunning s f = .next t) : Acts i s t := by
  cases hn : s.nRST with
  | false =>
    rw [whenRunning_held hn] at h
    exact Host.Outcome.next.inj h ▸ .idle
  | true =>
    rw [whenRunning_eq hn] at h
    exact Host.Outcome.next.inj h ▸ .takes f hf hn

theorem acts_ite {i : Instr} {s a b t : State} {c : Bool} (ha : c = true → Acts i s a) (hb : Acts i s b)
    (h : (.next (if c then a else b) : Host.Outcome State Fault Refusal) = .next t) : Acts i s t := by
  obtain rfl := Host.Outcome.next.inj h
  split
  · next hc => exact ha hc
  · exact hb

/-- Every row acts in one of these ways. -/
theorem exec_acts {i : Instr} {s t : State} (h : exec i s = .next t) : Acts i s t := by
  cases i with
  | tick x => exact acts_ite (fun hn => .ticks x rfl hn) .idle h
  | restart => exact acts_ite (fun _ => .resets .restart true (.inl rfl)) .idle h
  | powerOn n => exact Host.Outcome.next.inj h ▸ .resets .power n (.inr (.inr (.inr ⟨n, rfl⟩)))
  | nrstLow => exact acts_ite (fun _ => .resets .pin false (.inr (.inl rfl))) .idle h
  | nrstHigh =>
    obtain rfl := Host.Outcome.next.inj h
    split
    · exact .idle
    · exact .resets s.link.cause true (.inr (.inr (.inl rfl)))
  | statusFrame | commandFrame | fetchFrame | frameOfNoKind | cutRisingEdge | cutFallingEdge | partEnd | engageDelayEnd
  | blankingTimeEnd | filterTimerFires | overtime | checkDurationEnd | stretchTimerEnd | watchdogExpiry
  | conversionEnd => exact whenRunning_acts rfl h
  | _ => exact complete_acts rfl h

/-! ### The events that a tick finds standing -/

/-- An event that a tick has made due acts as its row does. -/
theorem takeDue_eq (s : State) (e : Due) : ∃ f, eventOf (rowOf e) = some f ∧ takeDue s e = commit s (f s) := by
  cases e <;> exact ⟨_, rfl, rfl⟩

/-- What every due event and every draw of a free value keeps, the taking of all of them keeps. -/
theorem settle_induction {P : State → Prop} (hcount : ∀ s n, P s → P { s with freeCount := n })
    (hevent : ∀ e f s, eventOf (rowOf e) = some f → P s → P (commit s (f s))) {s : State} (h : P s) : P (settle s) := by
  have htake : ∀ e s, P s → P (takeDue s e) := by
    intro e s hs
    obtain ⟨f, hf, he⟩ := takeDue_eq s e
    exact he ▸ hevent e f s hf hs
  have hloop : ∀ (fuel : Nat) (s : State), P s → P (settleLoop fuel s) := by
    intro fuel
    induction fuel with
    | zero => exact fun _ hs => hs
    | succ fuel ih =>
      intro s hs
      unfold settleLoop
      split
      · exact hs
      · exact ih _ (htake _ _ hs)
      · exact ih _ (htake _ _ (hcount s _ hs))
  exact hloop _ s h

/-! ### Invariants -/

/-- A predicate that each part of a step keeps. -/
structure KeptByStep (P : State → Prop) : Prop where
  reset   : ∀ s cause nRST, P (resetTo s cause nRST)
  commit  : ∀ before after, P after → P (commit before after)
  reply   : ∀ s b, P s → P (s.setLink { s.link with buffer := b })
  count   : ∀ s n, P s → P { s with freeCount := n }
  queue   : ∀ s l, P s → P { s with pending := l }
  command : ∀ i f s, commandOf i = some f → P s → P (f s).1
  event   : ∀ i f s, eventOf i = some f → P s → P (f s)
  tick    : ∀ x s, P s → P (tickBody x s)

/-- A predicate that each part of a step keeps is an invariant of every step. -/
theorem KeptByStep.step {P : State → Prop} (k : KeptByStep P) {s t : State} (hs : P s) (h : step s = .next t) : P t := by
  unfold Machine.step at h
  split at h
  case h_1 => exact Host.Outcome.next.inj h ▸ hs
  case h_2 i rest _ =>
    have hq := k.queue s rest hs
    cases exec_acts h with
    | idle => exact hq
    | waits f hf => exact k.commit _ _ hq
    | completes f hf hr => exact k.commit _ _ (k.reply _ _ (k.command i f _ hf hq))
    | takes f hf hn => exact k.commit _ _ (k.event i f _ hf hq)
    | ticks x hx hn =>
      have hsettle := settle_induction k.count (fun e f u hf hu => k.commit _ _ (k.event (rowOf e) f u hf hu)) hq
      exact k.commit _ _ (k.tick x _ hsettle)
    | resets cause n hi => exact k.reset _ cause n

end Sys2Proof.Proofs

/-! What the commands and the events never touch: each command keeps the rest of the part, or writes the one thing that it is
for; each event but a frame, a conversion and the watchdog's leaves the link and the scan; and O54 and O45 from these. -/

namespace Sys2Proof.Proofs

open Sys2Proof.Machine Sys2Proof.Safety Sys2Proof.Laws

/-! ### The commands, each by what it touches -/

section Tables

variable (s : State)

theorem restate_keepsRest (n : Nat) (v : RecState) : KeepsRest s (s.restate n v) := by
  unfold State.restate
  split
  · exact putRecord_keepsRest _ _
  · exact .refl s

theorem reselect_keepsRest (n : Nat) (v : RecState) : KeepsRest s (reselect s n v) := by
  unfold reselect
  split
  · split
    · exact (putRecord_keepsRest _ _).trans (select_keepsRest _ _ _)
    · exact putRecord_keepsRest _ _
  · exact .refl s

theorem editEffect_keepsRest (r : ToolRecord) (gained unended : Bool) : KeepsRest s (editEffect s r gained unended) := by
  unfold editEffect
  split
  case h_1 => split; exacts [restate_keepsRest _ _ _, .refl s]
  case h_2 => split; exacts [reselect_keepsRest _ _ _, .refl s]
  case h_3 =>
    split
    · split
      · exact toolEnded_keepsRest _ _
      · split; exacts [setService_keepsRest _ _ _, .refl s]
    · exact .refl s
  case h_4 => split; exacts [(restate_keepsRest _ _ _).trans (inform_keepsRest _ _), .refl s]
  all_goals exact .refl s

theorem editCommand_keepsRest (t : Half) (a p : Byte) (m : Measures) : KeepsRest s (editCommand t a p m s).1 := by
  unfold editCommand
  split
  · split
    · split
      · exact .refl s
      · exact (measureWrite_keepsRest _ _ _ _).trans (editEffect_keepsRest _ _ _ _)
    · exact .refl s
  · exact .refl s

theorem lockCommand_keepsRest (t : Half) : KeepsRest s (lockCommand t s).1 := by
  unfold lockCommand
  split
  · split
    · split
      case h_1 | h_2 => exact restate_keepsRest _ _ _
      case h_3 => exact reselect_keepsRest _ _ _
      all_goals exact .refl s
    · exact .refl s
  · exact .refl s

theorem unlockCommand_keepsRest (t : Half) : KeepsRest s (unlockCommand t s).1 := by
  unfold unlockCommand
  split
  · split
    · split
      · split
        · exact (restate_keepsRest _ _ _).trans (inform_keepsRest _ _)
        · exact restate_keepsRest _ _ _
      · exact .refl s
    · exact .refl s
  · exact .refl s

theorem leaveGroup_keepsRest (r : ToolRecord) : KeepsRest s (leaveGroup s r) := by
  unfold leaveGroup
  split
  · split; exacts [setGroup_keepsRest _ _ _, .refl s]
  · exact .refl s

theorem unlinkCommand_keepsRest (t : Half) : KeepsRest s (unlinkCommand t s).1 := by
  unfold unlinkCommand
  split
  · split
    · split
      · exact .refl s
      · split
        · exact .refl s
        · exact (leaveGroup_keepsRest _ _).trans (putRecord_keepsRest _ _)
    · exact .refl s
  · exact .refl s

theorem linkCommand_keepsRest (g : Byte) (t : Half) (x : Byte) : KeepsRest s (linkCommand g t x s).1 := by
  unfold linkCommand
  split
  · split
    · split
      · split_ifs
        · exact .refl s
        · exact .refl s
        · exact .refl s
        · exact .refl s
        · exact ((setGroup_keepsRest _ _ _).trans (putRecord_keepsRest _ _)).trans (inform_keepsRest _ _)
      · exact .refl s
    · exact .refl s
  · exact .refl s

/-- A table rewritten record by record, the tool numbers kept. -/
theorem mapTable_keepsRest (f : ToolRecord → ToolRecord) (hf : ∀ r, (f r).number = r.number) :
    KeepsRest s { s with table := s.table.map f } :=
  ⟨rfl, rfl, rfl, rfl, rfl, rfl, rfl, rfl, rfl, rfl, rfl, by simp [Function.comp_def, hf], FlagsKept.of_notices rfl⟩

theorem clampCarries_keepsRest (g : GroupNo) (n : Nat) : KeepsRest s (clampCarries s g n) :=
  mapTable_keepsRest s _ fun r => by split <;> rfl

theorem rewarnMembers_keepsRest (g : GroupNo) (m : Nat) : KeepsRest s (rewarnMembers s g m) := by
  have hfold : ∀ (l : List ToolRecord) (u : State), KeepsRest u (l.foldl (fun s r => s.raiseAt r.seat .warn) u) := by
    intro l
    induction l with
    | nil => exact .refl
    | cons r l ih => exact fun u => (raiseAt_keepsRest u r.seat .warn).trans (ih _)
  exact (mapTable_keepsRest s _ fun r => by split <;> rfl).trans (hfold _ _)

theorem stopDisabled_keepsRest (g : GroupNo) (p : Params) : KeepsRest s (stopDisabled s g p) :=
  ⟨rfl, rfl, rfl, rfl, rfl, rfl, rfl, rfl, rfl, rfl, rfl, rfl, FlagsKept.of_notices rfl⟩

theorem redefine_keepsRest (g : GroupNo) (grp : Group) (p : Params) : KeepsRest s (redefine s g grp p) := by
  have hcarries : ∀ u, KeepsRest u
      (if p.nominalLoad = grp.params.nominalLoad then u else clampCarries u g p.nominalLoad) := by
    intro u; split; exacts [.refl u, clampCarries_keepsRest u _ _]
  have hwarnings : ∀ u, KeepsRest u
      (if p.warnMargin = grp.params.warnMargin then u else rewarnMembers u g p.warnMargin) := by
    intro u; split; exacts [.refl u, rewarnMembers_keepsRest u _ _]
  exact (((setGroup_keepsRest s g _).trans (hcarries _)).trans (hwarnings _)).trans (stopDisabled_keepsRest _ g p)

theorem defineCommand_keepsRest (a : DefineArgs) : KeepsRest s (defineCommand a s).1 := by
  unfold defineCommand defineGroup
  split
  · split
    · exact .refl s
    · split
      · exact .refl s
      · exact setGroup_keepsRest _ _ _
      · exact setGroup_keepsRest _ _ _
      · split; exacts [redefine_keepsRest _ _ _ _, setGroup_keepsRest _ _ _]
  · exact .refl s

end Tables

section Seats

variable (s : State)

theorem bindCommand_keepsRest (q g : Byte) : KeepsRest s (bindCommand q g s).1 := by
  unfold bindCommand
  split
  · split
    · exact .refl s
    · split
      · split
        · exact .refl s
        · exact (setSeat_keepsRest _ _ _).trans (select_keepsRest _ _ _)
      · exact .refl s
  · exact .refl s

theorem leaveQueue_keepsRest (q : SeatNo) : KeepsRest s (leaveQueue s q) := by
  unfold leaveQueue
  split
  · split; exacts [setGroup_keepsRest _ _ _, .refl s]
  · exact .refl s

theorem unbindSeat_keepsRest (q : SeatNo) : KeepsRest s (unbindSeat s q) := by
  have hleft := ((leaveService_keepsRest s q).trans (leaveQueue_keepsRest _ q)).trans
    (setSeat_keepsRest _ q { service := .unbound, group := none })
  unfold unbindSeat
  dsimp only
  split
  · exact hleft.trans (returnRecord_keepsRest _ _)
  · exact hleft

theorem unbindCommand_keepsRest (q : Byte) : KeepsRest s (unbindCommand q s).1 := by
  unfold unbindCommand
  split
  · split
    case h_2 | h_3 => exact unbindSeat_keepsRest _ _
    case h_4 | h_5 => split; exacts [.refl s, unbindSeat_keepsRest _ _]
    all_goals exact .refl s
  · exact .refl s

theorem enterService_keepsRest (q : SeatNo) : KeepsRest s (enterService s q) := by
  unfold enterService
  dsimp only
  split
  · exact (setService_keepsRest _ _ _).trans (setWheel_keepsRest _ _ _)
  · exact setService_keepsRest _ _ _

theorem cursorTo_keepsRest (g : GroupNo) (n : Nat) : KeepsRest s (cursorTo s g n) := by
  unfold cursorTo
  split
  · exact setGroup_keepsRest _ _ _
  · exact .refl s

theorem mountChosen_keepsRest (q : SeatNo) (r : ToolRecord) : KeepsRest s (mountChosen s q r) := by
  have h := (putRecord_keepsRest s { r with state := .active }).trans (enterService_keepsRest _ q)
  unfold mountChosen
  dsimp only
  split
  · exact h.trans (raise_keepsRest _ _ _)
  · exact h

theorem mountAlternative_keepsRest (q : SeatNo) (g : GroupNo) (r : ToolRecord) :
    KeepsRest s (mountAlternative s q g r) := by
  have hcursor := (putRecord_keepsRest s { r with state := .active, seat := some q }).trans (cursorTo_keepsRest _ g r.number)
  have hreturned : KeepsRest s (match s.holder q with
      | some d => returnRecord (cursorTo (s.putRecord { r with state := .active, seat := some q }) g r.number) d
      | none => cursorTo (s.putRecord { r with state := .active, seat := some q }) g r.number) := by
    split
    · exact hcursor.trans (returnRecord_keepsRest _ _)
    · exact hcursor
  have h := hreturned.trans (enterService_keepsRest _ q)
  unfold mountAlternative
  dsimp only
  split
  · exact h.trans (raise_keepsRest _ _ _)
  · exact h

theorem mountCommand_keepsRest (q : Byte) (t : Half) : KeepsRest s (mountCommand q t s).1 := by
  unfold mountCommand
  split
  · split
    · exact .refl s
    · split
      · split
        · exact mountChosen_keepsRest _ _ _
        · split
          · split; exacts [mountAlternative_keepsRest _ _ _ _, .refl s]
          · exact .refl s
      · exact .refl s
  · exact .refl s

theorem swapSeat_keepsRest (q : SeatNo) : KeepsRest s (swapSeat s q) := by
  unfold swapSeat
  dsimp only
  split
  · exact ((leaveService_keepsRest s q).trans (returnRecord_keepsRest _ _)).trans (select_keepsRest _ _ _)
  · exact leaveService_keepsRest s q

theorem swapCommand_keepsRest (q : Byte) : KeepsRest s (swapCommand q s).1 := by
  unfold swapCommand
  split
  · split_ifs
    · exact .refl s
    · exact .refl s
    · exact .refl s
    · exact swapSeat_keepsRest _ _
  · exact .refl s

theorem releaseSeat_keepsRest (q : SeatNo) : KeepsRest s (releaseSeat s q) := by
  unfold releaseSeat
  split
  · next r _ =>
    have hput := putRecord_keepsRest s { r with state := .active, cause := none }
    split
    · dsimp only
      split
      · exact hput.trans (beginChange_keepsRest _ _)
      · split
        · exact (hput.trans (setService_keepsRest _ _ _)).trans (stopFilters_keepsRest _ _)
        · exact hput.trans (setService_keepsRest _ _ _)
    · exact .refl s
  · exact .refl s

theorem releaseCommand_keepsRest (q : Byte) : KeepsRest s (releaseCommand q s).1 := by
  unfold releaseCommand
  split
  · split; exacts [releaseSeat_keepsRest _ _, .refl s]
  · exact .refl s

theorem condemnSeat_keepsRest (q : SeatNo) : KeepsRest s (condemnSeat s q) :=
  ((leaveService_keepsRest _ _).trans (takeOff_keepsRest _ _ _ _)).trans (select_keepsRest _ _ _)

theorem condemnCommand_keepsRest (q : Byte) : KeepsRest s (condemnCommand q s).1 := by
  unfold condemnCommand
  split
  · split; exacts [condemnSeat_keepsRest _ _, .refl s]
  · exact .refl s

theorem checkCommand_keepsRest (q : Byte) (lo hi : Half) (d : Byte) : KeepsRest s (checkCommand q lo hi d s).1 := by
  unfold checkCommand
  split
  · split
    · split_ifs
      · exact .refl s
      · exact .refl s
      · exact .refl s
      · exact setWheel_keepsRest _ _ _
    · exact .refl s
  · exact .refl s

theorem dressSeat_keepsRest (q : SeatNo) (stock : Nat) : KeepsRest s (dressSeat s q stock) := by
  unfold dressSeat
  split
  · exact (measureWrite_keepsRest _ _ _ _).trans (tell_keepsRest _ _)
  · exact .refl s

theorem dressCommand_keepsRest (q : Byte) (x : Half) : KeepsRest s (dressCommand q x s).1 := by
  unfold dressCommand
  split
  · split
    · split
      · unfold dressWheel
        dsimp only
        split
        · exact (dressSeat_keepsRest _ _ _).trans (dressSeat_keepsRest _ _ _)
        · exact dressSeat_keepsRest _ _ _
      · exact .refl s
    · exact .refl s
  · exact .refl s

end Seats

/-! ### The commands together -/

/-- A channel within the bounds of R120. -/
structure ChannelBounded (x : Channel) : Prop where
  count   : x.count ∈ averagingCounts
  held    : x.held < x.count
  sum     : x.sum ≤ x.held * 1023
  average : x.average ≤ 1023

theorem countArg_mem (b : Byte) : countArg b ∈ averagingCounts := by
  unfold countArg
  dsimp only
  split_ifs <;> decide

theorem averagingCount_pos {n : Nat} (h : n ∈ averagingCounts) : 0 < n := by
  unfold averagingCounts at h
  simp only [List.mem_cons, List.not_mem_nil, or_false] at h
  omega

/-- The commands that put a record in the table or take one out of it. -/
def IsRegistry (i : Instr) : Prop := (∃ t k p m, i = .enrol t k p m) ∨ ∃ t, i = .retire t

/-- What a command's function can touch: the tools, groups and seats with the rest kept; the table and the groups alone, by
ENROL and RETIRE; a channel, within its bounds; the notices, by TAKE NOTICES; or the link's HOLD, period and watchdog with the stretch time. -/
inductive Touches (i : Instr) (s : State) : State → Prop where
  | rest {t : State} : KeepsRest s t → Touches i s t
  | records (l : List ToolRecord) (g : Vector (Option Group) 32) : IsRegistry i →
    Touches i s { s with table := l, groups := g }
  | channel (c : ChannelNo) (x : Channel) : (ChannelBounded s.scan.channels[c] → ChannelBounded x) →
    Touches i s (s.setChannel c x)
  | notices : i = .takeNotices → Touches i s (s.setNotices s.notices.taken)
  | link (h : Bool) (p : WatchdogPeriod) (w : Option Nat) (x : StretchTime) :
    Touches i s ((s.setLink { s.link with hold := h, period := p, watchdog := w }).setNotices { s.notices with stretch := x })

theorem enrolCommand_touches (s : State) (t : Half) (k p : Byte) (m : Measures) :
    Touches (.enrol t k p m) s (enrolCommand t k p m s).1 := by
  unfold enrolCommand
  split
  · split_ifs
    · exact .rest (.refl s)
    · exact .rest (.refl s)
    · exact .records _ s.groups (.inl ⟨t, k, p, m, rfl⟩)
  · exact .rest (.refl s)

theorem retireCommand_touches (s : State) (t : Half) : Touches (.retire t) s (retireCommand t s).1 := by
  unfold retireCommand
  split
  · split
    · next n r _ =>
      split
      · exact .rest (.refl s)
      · have hgroup : leaveGroup s r = { s with table := s.table, groups := (leaveGroup s r).groups } := by
          unfold leaveGroup
          split
          · split <;> rfl
          · rfl
        dsimp only
        rw [hgroup]
        exact .records _ _ (.inr ⟨t, rfl⟩)
    · exact .rest (.refl s)
  · exact .rest (.refl s)

theorem resumeCommand_touches (i : Instr) (s : State) : Touches i s (resumeCommand s).1 := by
  cases h : s.link.hold with
  | false =>
    rw [resumeCommand_of_running h]
    exact .rest (.refl s)
  | true =>
    rw [resumeCommand_of_hold h]
    exact .link false s.link.period _ s.notices.stretch

theorem command_touches {i : Instr} {f : State → State × Reply} (hf : commandOf i = some f) (s : State) :
    Touches i s (f s).1 := by
  cases i <;> cases hf
  case enrol => exact enrolCommand_touches s _ _ _ _
  case edit => exact .rest (editCommand_keepsRest s _ _ _ _)
  case retire => exact retireCommand_touches s _
  case query => unfold queryCommand; split; (split <;> exact .rest (.refl s)); exact .rest (.refl s)
  case next => unfold nextCommand; split <;> exact .rest (.refl s)
  case lock => exact .rest (lockCommand_keepsRest s _)
  case unlock => exact .rest (unlockCommand_keepsRest s _)
  case define => exact .rest (defineCommand_keepsRest s _)
  case link => exact .rest (linkCommand_keepsRest s _ _ _)
  case unlink => exact .rest (unlinkCommand_keepsRest s _)
  case group => unfold groupCommand; split; (split <;> exact .rest (.refl s)); exact .rest (.refl s)
  case bind => exact .rest (bindCommand_keepsRest s _ _)
  case unbind => exact .rest (unbindCommand_keepsRest s _)
  case mount => exact .rest (mountCommand_keepsRest s _ _)
  case swap => exact .rest (swapCommand_keepsRest s _)
  case whereSeat => unfold whereCommand; split <;> exact .rest (.refl s)
  case release => exact .rest (releaseCommand_keepsRest s _)
  case condemn => exact .rest (condemnCommand_keepsRest s _)
  case check => exact .rest (checkCommand_keepsRest s _ _ _ _)
  case dress => exact .rest (dressCommand_keepsRest s _ _)
  case readLoad =>
    unfold readLoadCommand
    split
    · exact .channel _ _ fun h => ⟨h.count, h.held, h.sum, h.average⟩
    · exact .rest (.refl s)
  case setSense =>
    unfold setSenseCommand
    split
    · exact .channel _ _ fun h => ⟨countArg_mem _, averagingCount_pos (countArg_mem _), Nat.zero_le _, h.average⟩
    · exact .rest (.refl s)
  case takeNotices => exact .notices rfl
  case setLink => rw [setLinkCommand_eq]; exact .link s.link.hold _ _ _
  case resume => exact resumeCommand_touches _ s
  case ident => exact .rest (.refl s)

end Sys2Proof.Proofs

/-! What the events never touch, each said once, and from this and the commands: only TAKE NOTICES and the resets clear a
flag (O54), and the load scan stays in its ranges (O45). -/

namespace Sys2Proof.Proofs

open Sys2Proof.Machine Sys2Proof.Safety Sys2Proof.Laws

/-! ### The inputs and the timers -/

/-- Kept by every event of the inputs and of the timers at the seats and the stations. -/
structure KeepsControl (s t : State) : Prop where
  scan    : t.scan = s.scan
  link    : t.link = s.link
  pins    : t.pins = s.pins
  device  : t.notices.device = s.notices.device
  stretch : t.notices.stretch = s.notices.stretch
  nRST    : t.nRST = s.nRST
  pending : t.pending = s.pending
  numbers : t.table.map (·.number) = s.table.map (·.number)
  flags   : FlagsKept s t

theorem KeepsRest.control {s t : State} (h : KeepsRest s t) : KeepsControl s t :=
  ⟨h.scan, h.link, h.pins, h.device, h.stretch, h.nRST, h.pending, h.numbers, h.flags⟩

theorem KeepsControl.refl (s : State) : KeepsControl s s := KeepsRest.control (.refl s)

theorem KeepsControl.trans {s t u : State} (h₁ : KeepsControl s t) (h₂ : KeepsControl t u) : KeepsControl s u :=
  ⟨h₂.scan.trans h₁.scan, h₂.link.trans h₁.link, h₂.pins.trans h₁.pins, h₂.device.trans h₁.device,
   h₂.stretch.trans h₁.stretch, h₂.nRST.trans h₁.nRST, h₂.pending.trans h₁.pending, h₂.numbers.trans h₁.numbers,
   FlagsKept.trans h₁.flags h₂.flags⟩

section Inputs

variable (s : State)

theorem setStation_keepsControl (st : StationNo) (x : Station) : KeepsControl s (s.setStation st x) :=
  ⟨rfl, rfl, rfl, rfl, rfl, rfl, rfl, rfl, FlagsKept.of_notices rfl⟩

theorem freeCount_keepsControl (n : Nat) : KeepsControl s { s with freeCount := n } :=
  ⟨rfl, rfl, rfl, rfl, rfl, rfl, rfl, rfl, FlagsKept.of_notices rfl⟩

theorem takeCutMark_keepsControl (w : WheelNo) (e : Edge) : KeepsControl s (takeCutMark s w e) := by
  obtain ⟨l, hl⟩ := takeCutMark_eq s w e
  rw [hl]
  exact ⟨rfl, rfl, rfl, rfl, rfl, rfl, rfl, rfl, FlagsKept.of_notices rfl⟩

theorem takePendMark_keepsControl (st : StationNo) : KeepsControl s (takePendMark s st) :=
  ⟨rfl, rfl, rfl, rfl, rfl, rfl, rfl, rfl, FlagsKept.of_notices rfl⟩

theorem beginCut_keepsControl (w : WheelNo) : KeepsControl s (beginCut s w) :=
  ((KeepsRest.control (setWheel_keepsRest s w _)).trans (setStation_keepsControl _ _ _)).trans
    (KeepsRest.control (abortCheck_keepsRest _ w))

theorem takeCutRise_keepsControl (w : WheelNo) : KeepsControl s (takeCutRise w s) := by
  have hmark := takeCutMark_keepsControl s w .rising
  unfold takeCutRise
  dsimp only
  split
  case h_1 | h_2 => split; exacts [hmark, hmark.trans (beginCut_keepsControl _ w)]
  all_goals exact hmark.trans (KeepsRest.control (raise_keepsRest _ _ _))

theorem takeCutFall_keepsControl (w : WheelNo) : KeepsControl s (takeCutFall w s) := by
  have hmark := takeCutMark_keepsControl s w .falling
  unfold takeCutFall
  dsimp only
  split
  · exact (hmark.trans (freeCount_keepsControl _ _)).trans (KeepsRest.control
      (((setWheel_keepsRest _ w _).trans (closeCut_keepsRest _ w)).trans (tell_keepsRest _ _)))
  · exact hmark

theorem partCharge_keepsRest (q : SeatNo) : KeepsRest s (partCharge s q).1 := by
  unfold partCharge
  split
  · split
    · exact measureWrite_keepsRest _ _ _ _
    · exact .refl s
  · exact .refl s

theorem partCharges_keepsRest (qs : List SeatNo) : KeepsRest s (partCharges s qs).1 := by
  induction qs generalizing s with
  | nil => exact .refl s
  | cons q qs ih => exact (partCharge_keepsRest s q).trans (ih _)

theorem clearSeen_keepsRest (ws : List WheelNo) :
    KeepsRest s (ws.foldl (fun s w => s.setWheel w { s.wheels[w] with cutSeen := false }) s) := by
  induction ws generalizing s with
  | nil => exact .refl s
  | cons w ws ih => exact (setWheel_keepsRest s w _).trans (ih _)

theorem clearPart_keepsControl (st : StationNo) : KeepsControl s (clearPart s st) :=
  (setStation_keepsControl s st _).trans (KeepsRest.control (clearSeen_keepsRest _ (wheelsOf st)))

theorem beginChanges_keepsRest (qs : List SeatNo) : KeepsRest s (qs.foldl beginChange s) := by
  induction qs generalizing s with
  | nil => exact .refl s
  | cons q qs ih => exact (beginChange_keepsRest s q).trans (ih _)

theorem endPart_keepsControl (st : StationNo) : KeepsControl s (endPart s st) :=
  (((KeepsRest.control (partCharges_keepsRest s (seatsOf st))).trans (clearPart_keepsControl _ st)).trans
    (freeCount_keepsControl _ _)).trans (KeepsRest.control (beginChanges_keepsRest _ _))

theorem takePartEnd_keepsControl (st : StationNo) : KeepsControl s (takePartEnd st s) := by
  unfold takePartEnd
  dsimp only
  split
  · exact (takePendMark_keepsControl s st).trans (endPart_keepsControl _ st)
  · exact takePendMark_keepsControl s st

theorem takeEngageEnd_keepsRest (w : WheelNo) : KeepsRest s (takeEngageEnd w s) := by
  unfold takeEngageEnd
  split; exacts [setWheel_keepsRest _ _ _, .refl s]

theorem takeBlankingEnd_keepsRest (w : WheelNo) : KeepsRest s (takeBlankingEnd w s) := by
  unfold takeBlankingEnd
  split; exacts [setWheel_keepsRest _ _ _, .refl s]

theorem takeFilter_keepsRest (w : WheelNo) (k : FilterKind) : KeepsRest s (takeFilter w k s) := by
  unfold takeFilter
  split; exacts [(setWheel_keepsRest _ _ _).trans (suspicion_keepsRest _ _ _), .refl s]

theorem takeOvertime_keepsRest (w : WheelNo) : KeepsRest s (takeOvertime w s) := by
  unfold takeOvertime
  split
  · split; exacts [(setWheel_keepsRest _ _ _).trans (suspicion_keepsRest _ _ _), .refl s]
  · exact .refl s

theorem takeCheckEnd_keepsRest (w : WheelNo) : KeepsRest s (takeCheckEnd w s) := by
  unfold takeCheckEnd
  split
  · split; exacts [endCheck_keepsRest _ _ _, .refl s]
  · exact .refl s

theorem takeStretchEnd_keepsControl (st : StationNo) : KeepsControl s (takeStretchEnd st s) := by
  unfold takeStretchEnd
  split; exacts [setStation_keepsControl _ _ _, .refl s]

end Inputs

/-! ### Frames -/

/-- The rows of a frame. -/
def IsFrame (i : Instr) : Prop :=
  (∃ m a l, i = .statusFrame m a l ∨ i = .commandFrame m a l ∨ i = .fetchFrame m a l) ∨ ∃ m b, i = .frameOfNoKind m b

/-- The link after a frame's moment: HOLD, the period and what is neither the frame's nor the buffer's are kept, and the
watchdog is kept or restarted. -/
structure KeepsLink (l l' : Link) : Prop where
  hold     : l'.hold = l.hold
  period   : l'.period = l.period
  watchdog : l'.watchdog = l.watchdog ∨ l.hold = false ∧ l'.watchdog = if l.period = .off then none else some 0

theorem KeepsLink.refl (l : Link) : KeepsLink l l := ⟨rfl, rfl, .inl rfl⟩

theorem KeepsLink.of_eq {l l' : Link} (hold : l'.hold = l.hold) (period : l'.period = l.period)
    (watchdog : l'.watchdog = l.watchdog) : KeepsLink l l' := ⟨hold, period, .inl watchdog⟩

theorem KeepsLink.trans {l m n : Link} (h₁ : KeepsLink l m) (h₂ : KeepsLink m n) : KeepsLink l n := by
  refine ⟨h₂.hold.trans h₁.hold, h₂.period.trans h₁.period, ?_⟩
  rcases h₂.watchdog with h | ⟨hh, h⟩
  · rw [h]
    exact h₁.watchdog
  · rw [h₁.hold] at hh
    rw [h₁.period] at h
    exact .inr ⟨hh, h⟩

theorem heard_keepsLink (l : Link) : KeepsLink l (heard l) := by
  refine ⟨rfl, rfl, ?_⟩
  cases hh : l.hold with
  | false => exact .inr ⟨rfl, by simp only [heard, hh, Bool.false_eq_true, if_false]⟩
  | true => exact .inl (by simp only [heard, hh, if_true])

/-- What a frame's moment can write: the link, and what SDO carried. -/
def LinkAndSdo (s t : State) : Prop := ∃ l x, KeepsLink s.link l ∧ t = (s.setLink l).setSdo x

section Frames

variable (s : State)

theorem LinkAndSdo.refl : LinkAndSdo s s := ⟨s.link, s.pins.sdo, .refl _, rfl⟩

theorem LinkAndSdo.trans {s t u : State} (h₁ : LinkAndSdo s t) (h₂ : LinkAndSdo t u) : LinkAndSdo s u := by
  obtain ⟨l, x, hl, rfl⟩ := h₁
  obtain ⟨m, y, hm, rfl⟩ := h₂
  exact ⟨m, y, hl.trans hm, rfl⟩

theorem setLink_linkAndSdo {l : Link} (h : KeepsLink s.link l) : LinkAndSdo s (s.setLink l) := ⟨l, s.pins.sdo, h, rfl⟩

theorem setSdo_linkAndSdo (x : Option (List Bool)) : LinkAndSdo s (s.setSdo x) := ⟨s.link, x, .refl _, rfl⟩

theorem openFrame_linkAndSdo (p : Straps) : LinkAndSdo s (openFrame p s) :=
  setLink_linkAndSdo s (.of_eq rfl rfl rfl)

theorem passFrame_linkAndSdo : LinkAndSdo s (passFrame s) := ⟨passed s.link, none, .of_eq rfl rfl rfl, rfl⟩

theorem acceptFrame_linkAndSdo : LinkAndSdo s (acceptFrame s) := by
  rw [acceptFrame_eq]
  exact setLink_linkAndSdo s (heard_keepsLink _)

theorem rejectFrame_linkAndSdo : LinkAndSdo s (rejectFrame s) := setLink_linkAndSdo s (.of_eq rfl rfl rfl)

theorem endFrame_linkAndSdo (a : BitVec 2) {take : Frame → State → State} (h : ∀ f s, LinkAndSdo s (take f s)) :
    LinkAndSdo s (endFrame a take s) := by
  unfold endFrame
  split; exacts [h _ s, passFrame_linkAndSdo s]

theorem takeStatus_linkAndSdo (a : BitVec 2) (l : List Bool) (f : Frame) : LinkAndSdo s (takeStatus a l f s) := by
  unfold takeStatus
  refine .trans ?_ (setSdo_linkAndSdo _ _)
  split; exacts [acceptFrame_linkAndSdo s, rejectFrame_linkAndSdo s]

theorem takeCommand_linkAndSdo (a : BitVec 2) (l : List Bool) (f : Frame) : LinkAndSdo s (takeCommand a l f s) := by
  unfold takeCommand
  refine .trans ?_ (setSdo_linkAndSdo _ _)
  split
  · split
    · exact (acceptFrame_linkAndSdo s).trans (setLink_linkAndSdo _ (.of_eq rfl rfl rfl))
    · exact rejectFrame_linkAndSdo s
  · exact rejectFrame_linkAndSdo s

theorem takeFetch_linkAndSdo (a : BitVec 2) (l : List Bool) (f : Frame) : LinkAndSdo s (takeFetch a l f s) := by
  unfold takeFetch
  refine .trans ?_ (setSdo_linkAndSdo _ _)
  split; exacts [acceptFrame_linkAndSdo s, rejectFrame_linkAndSdo s]

theorem formReply_linkAndSdo (a : BitVec 2) (l : List Bool) : LinkAndSdo s (formReply a l s) := by
  unfold formReply
  split
  · split; exacts [setLink_linkAndSdo s (.of_eq rfl rfl rfl), .refl s]
  · exact .refl s

theorem takeNoKind_linkAndSdo (b : NoKind) : LinkAndSdo s (takeNoKind b s) := by
  have hreject : ∀ (x : Option (List Bool)) (s : State), LinkAndSdo s ((rejectFrame s).setSdo x) :=
    fun x s => (rejectFrame_linkAndSdo s).trans (setSdo_linkAndSdo _ x)
  unfold takeNoKind
  split
  case h_1 | h_2 => exact passFrame_linkAndSdo s
  all_goals exact endFrame_linkAndSdo s _ fun f s => hreject _ s

theorem atMoment_linkAndSdo (m : FrameMoment) {third rise : State → State} (h₃ : ∀ s, LinkAndSdo s (third s))
    (h : ∀ s, LinkAndSdo s (rise s)) : LinkAndSdo s (atMoment m third rise s) := by
  cases m with
  | fall p => exact openFrame_linkAndSdo s p
  | thirdByte => exact h₃ s
  | rise => exact h s
  | whole p => exact (openFrame_linkAndSdo s p).trans (h _)

end Frames

/-! ### Conversions -/

theorem raiseSense_flags (s : State) : FlagsKept s s.raiseSense := by simp [FlagsKept]

/-- What the monitor can make of the scan: another run count, of at most 2 if it is not 0, and another fault. -/
theorem monitor_keeps (code : BitVec 10) (s : State) :
    ∃ run fault, (run = 0 ∨ run ≤ 2) ∧ (monitor s code.toNat).scan = { s.scan with run := run, fault := fault }
      ∧ (monitor s code.toNat).link = s.link ∧ FlagsKept s (monitor s code.toNat) := by
  by_cases h : SpeaksAgainst code s
  · by_cases hrun : s.scan.run < 2
    · rw [monitor_of_few h hrun]
      exact ⟨s.scan.run + 1, s.scan.fault, .inr hrun, rfl, rfl, FlagsKept.of_notices rfl⟩
    · refine ⟨0, _, .inl rfl, monitor_scan_of_third h (by omega), ?_⟩
      rw [monitor_of_third h (by omega)]
      split
      · exact ⟨rfl, raiseSense_flags _⟩
      · exact ⟨(enterFault_keepsRest s).link,
          FlagsKept.trans (raiseSense_flags (s.setScan { s.scan with run := 0, fault := true })) (enterFault_keepsRest s).flags⟩
  · rw [monitor_of_agrees h]
    exact ⟨0, s.scan.fault, .inl rfl, rfl, rfl, FlagsKept.of_notices rfl⟩

/-- The end of a conversion: the block takes the code, and the run count and the fault may change. -/
structure Converts (s : State) (code : BitVec 10) (t : State) : Prop where
  scan  : ∃ run fault, (run = s.scan.run ∨ run ≤ 2) ∧ t.scan = { (scanned s code.toNat).scan with run := run, fault := fault }
  link  : t.link = s.link
  flags : FlagsKept s t

theorem convert_converts (s : State) (code : BitVec 10) : Converts s code (convert code.toNat s) := by
  by_cases h8 : s.scan.pointer = 8
  · rw [convert_ref s _ h8]
    obtain ⟨run, fault, hrun, hscan, hlink, hflags⟩ := monitor_keeps code (scanned s code.toNat)
    exact ⟨⟨run, fault, .inr (by omega), hscan⟩, hlink, FlagsKept.trans (FlagsKept.of_notices rfl) hflags⟩
  · have hkeep : KeepsRest (scanned s code.toNat) (convert code.toNat s) := by
      rw [convert_load s _ h8]
      split; exacts [published_keepsRest _ _, .refl _]
    exact ⟨⟨s.scan.run, s.scan.fault, .inl rfl, hkeep.scan⟩, hkeep.link, FlagsKept.trans (FlagsKept.of_notices rfl) hkeep.flags⟩

/-! ### The events together -/

/-- What an event can touch. -/
inductive Stirs (i : Instr) (s : State) : State → Prop where
  | control {t : State} : KeepsControl s t → Stirs i s t
  | frame {t : State} : IsFrame i → LinkAndSdo s t → Stirs i s t
  | conversion {t : State} (code : BitVec 10) : i = .conversionEnd code → Converts s code t → Stirs i s t
  | expiry : Stirs i s ((s.setLink { s.link with hold := true, watchdog := none }).raiseHold)

theorem event_stirs {i : Instr} {f : State → State} (hf : eventOf i = some f) (s : State) : Stirs i s (f s) := by
  cases i <;> cases hf
  case statusFrame m a l =>
    exact .frame (.inl ⟨m, a, l, .inl rfl⟩) (atMoment_linkAndSdo s m .refl
      fun s => endFrame_linkAndSdo s a fun f s => takeStatus_linkAndSdo s a l f)
  case commandFrame m a l =>
    exact .frame (.inl ⟨m, a, l, .inr (.inl rfl)⟩) (atMoment_linkAndSdo s m .refl
      fun s => endFrame_linkAndSdo s a fun f s => takeCommand_linkAndSdo s a l f)
  case fetchFrame m a l =>
    exact .frame (.inl ⟨m, a, l, .inr (.inr rfl)⟩) (atMoment_linkAndSdo s m (formReply_linkAndSdo · a l)
      fun s => endFrame_linkAndSdo s a fun f s => takeFetch_linkAndSdo s a l f)
  case frameOfNoKind m b =>
    exact .frame (.inr ⟨m, b, rfl⟩) (atMoment_linkAndSdo s m .refl fun s => takeNoKind_linkAndSdo s b)
  case cutRisingEdge w => exact .control (takeCutRise_keepsControl s w)
  case cutFallingEdge w => exact .control (takeCutFall_keepsControl s w)
  case partEnd st => exact .control (takePartEnd_keepsControl s st)
  case engageDelayEnd w => exact .control (KeepsRest.control (takeEngageEnd_keepsRest s w))
  case blankingTimeEnd w => exact .control (KeepsRest.control (takeBlankingEnd_keepsRest s w))
  case filterTimerFires w k => exact .control (KeepsRest.control (takeFilter_keepsRest s w k))
  case overtime w => exact .control (KeepsRest.control (takeOvertime_keepsRest s w))
  case checkDurationEnd w => exact .control (KeepsRest.control (takeCheckEnd_keepsRest s w))
  case stretchTimerEnd st => exact .control (takeStretchEnd_keepsControl s st)
  case watchdogExpiry =>
    unfold takeExpiry
    split; exacts [.expiry, .control (.refl s)]
  case conversionEnd code => exact .conversion code rfl (convert_converts s code)

/-! ### Notice flags -/

theorem commit_flags (s a : State) : FlagsKept a (commit s a) := FlagsKept.of_notices rfl

/-- A command but TAKE NOTICES clears no flag. -/
theorem command_flags {i : Instr} {f : State → State × Reply} (hf : commandOf i = some f) (hi : i ≠ .takeNotices)
    (s : State) : FlagsKept s (f s).1 := by
  generalize ht : (f s).1 = t
  cases ht ▸ command_touches hf s with
  | rest h => exact h.flags
  | records l g => exact FlagsKept.of_notices rfl
  | channel c x => exact FlagsKept.of_notices rfl
  | notices h => exact absurd h hi
  | link h p w x => simp [FlagsKept]

theorem event_flags {i : Instr} {f : State → State} (hf : eventOf i = some f) (s : State) : FlagsKept s (f s) := by
  generalize ht : f s = t
  cases ht ▸ event_stirs hf s with
  | control h => exact h.flags
  | frame _ h =>
    obtain ⟨l, x, _, rfl⟩ := h
    exact FlagsKept.of_notices rfl
  | conversion code _ h => exact h.flags
  | expiry => simp [FlagsKept]

theorem settle_flags (s : State) : FlagsKept s (settle s) :=
  settle_induction (P := FlagsKept s) (fun _ _ h => h)
    (fun _ _ u hf h => FlagsKept.trans (FlagsKept.trans h (event_flags hf u)) (commit_flags _ _)) (FlagsKept.refl s)

/-- Settles O54: no command but TAKE NOTICES, no event and no tick clears a flag. -/
theorem onlyTakeNoticesAndResetsClearFlags : Obligations.OnlyTakeNoticesAndResetsClearFlags := by
  intro i s t h hnotices hrestart hlow hhigh hpower
  cases exec_acts h with
  | idle => exact FlagsKept.refl s
  | waits f hf => exact commit_flags _ _
  | completes f hf hr => exact FlagsKept.trans (command_flags hf hnotices s) (FlagsKept.of_notices rfl)
  | takes f hf hn => exact FlagsKept.trans (event_flags hf s) (commit_flags _ _)
  | ticks x hx hn => exact FlagsKept.trans (settle_flags s) (FlagsKept.of_notices rfl)
  | resets cause n hi =>
    obtain hi | hi | hi | ⟨n, hi⟩ := hi
    exacts [absurd hi hrestart, absurd hi hlow, absurd hi hhigh, absurd hi (hpower n)]

/-! ### The load scan -/

theorem scanBounded_iff (s : State) :
    ScanBounded s ↔ (∀ c : ChannelNo, ChannelBounded s.scan.channels[c]) ∧ s.scan.run ≤ 2 :=
  ⟨fun h => ⟨fun c => ⟨h.count c, h.held c, h.sum c, h.average c⟩, h.run⟩,
   fun ⟨h, hr⟩ => ⟨fun c => (h c).count, fun c => (h c).held, fun c => (h c).sum, fun c => (h c).average, hr⟩⟩

theorem scanBounded_congr {s t : State} (h : t.scan = s.scan) (hs : ScanBounded s) : ScanBounded t := by
  rw [scanBounded_iff, h, ← scanBounded_iff]
  exact hs

/-- A write of one channel. -/
theorem channels_set {v : Vector Channel 9} (h : ∀ d : ChannelNo, ChannelBounded v[d]) (c : ChannelNo) {x : Channel}
    (hx : ChannelBounded x) (d : ChannelNo) : ChannelBounded (v.set c x)[d] := by
  simp only [Fin.getElem_fin, Vector.getElem_set]
  split
  · exact hx
  · exact h d

/-- A block takes a code of 10 bits: a mean of such codes is within the range of one. -/
theorem takeCode_bounded {x : Channel} (h : ChannelBounded x) (code : BitVec 10) :
    ChannelBounded (x.takeCode code.toNat).1 := by
  have hcode : code.toNat < 1024 := code.isLt
  obtain ⟨hcount, hheld, hsum, haverage⟩ := h
  unfold Channel.takeCode
  split
  · have htotal : x.sum + code.toNat ≤ x.count * 1023 := by omega
    exact ⟨hcount, averagingCount_pos hcount, Nat.zero_le _, Nat.div_le_of_le_mul htotal⟩
  · exact ⟨hcount, by dsimp only; omega, by dsimp only; omega, haverage⟩

theorem command_scanBounded {i : Instr} {f : State → State × Reply} (hf : commandOf i = some f) {s : State}
    (hs : ScanBounded s) : ScanBounded (f s).1 := by
  generalize ht : (f s).1 = t
  cases ht ▸ command_touches hf s with
  | rest h => exact scanBounded_congr h.scan hs
  | channel c x hx =>
    obtain ⟨hc, hr⟩ := (scanBounded_iff s).1 hs
    exact (scanBounded_iff _).2 ⟨channels_set hc c (hx (hc c)), hr⟩
  | records | notices | link => exact scanBounded_congr (s := s) rfl hs

theorem convert_scanBounded {s t : State} {code : BitVec 10} (h : Converts s code t) (hs : ScanBounded s) :
    ScanBounded t := by
  obtain ⟨hc, hr⟩ := (scanBounded_iff s).1 hs
  obtain ⟨run, fault, hrun, hscan⟩ := h.scan
  rw [scanBounded_iff, hscan]
  exact ⟨channels_set hc _ (takeCode_bounded (hc _) code), by dsimp only; omega⟩

theorem event_scanBounded {i : Instr} {f : State → State} (hf : eventOf i = some f) {s : State} (hs : ScanBounded s) :
    ScanBounded (f s) := by
  generalize ht : f s = t
  cases ht ▸ event_stirs hf s with
  | control h => exact scanBounded_congr h.scan hs
  | frame _ h =>
    obtain ⟨l, x, _, rfl⟩ := h
    exact scanBounded_congr (s := s) rfl hs
  | conversion code _ h => exact convert_scanBounded h hs
  | expiry => exact scanBounded_congr (s := s) rfl hs

theorem reset_scanBounded : ScanBounded State.reset := by
  rw [scanBounded_iff]
  refine ⟨fun c => ?_, by decide⟩
  have hc : State.reset.scan.channels[c] = Channel.reset := by simp [State.reset]
  rw [hc]
  exact ⟨by decide, by decide, by decide, by decide⟩

/-- Settles O45: a command writes a count of the table and empties the block, a conversion fills it, and nothing else
touches the scan. -/
theorem everyStepKeepsTheScanInRange : Obligations.EveryStepKeepsTheScanInRange := by
  have kept : KeptByStep ScanBounded :=
    { reset := fun _ _ _ => scanBounded_congr (s := State.reset) rfl reset_scanBounded
      commit := fun _ a => scanBounded_congr (s := a) rfl
      reply := fun s _ => scanBounded_congr (s := s) rfl
      count := fun s _ => scanBounded_congr (s := s) rfl
      queue := fun s _ => scanBounded_congr (s := s) rfl
      command := fun _ _ _ hf => command_scanBounded hf
      event := fun _ _ _ hf => event_scanBounded hf
      tick := fun _ s => scanBounded_congr (s := s) rfl }
  exact fun s t hs h => kept.step hs h

end Sys2Proof.Proofs

/-! The frame of a step: the queue (O1), the named writes (O2), the outputs at the end of a step (O3), the resets (O5), the
part held in reset (O6), and the state right after a reset (O7). -/

namespace Sys2Proof.Proofs

open Sys2Proof.Machine Sys2Proof.Safety Sys2Proof.Laws

/-- Settles O1: a step of a queue that is not empty is the row at its front. -/
theorem stepRunsFrontCommand : Obligations.StepRunsFrontCommand := by
  intro s c rest h
  unfold step
  rw [h]

/-! ### The named writes -/

section Writes

variable {s : State}

/-- A write at one index leaves the others. -/
theorem set_get_ne {α : Type} {n : Nat} (v : Vector α n) {i j : Fin n} (x : α) (h : j ≠ i) :
    (v.set i x)[j] = v[j] := by
  simp only [Fin.getElem_fin]
  exact Vector.getElem_set_ne i.isLt j.isLt fun hij => h (Fin.ext hij.symm)

theorem set_get_self {α : Type} {n : Nat} (v : Vector α n) (i : Fin n) (x : α) : (v.set i x)[i] = x := by
  simp only [Fin.getElem_fin, Vector.getElem_set_self]

/-- Inserting a record keeps the others, in some order. -/
theorem insertRecord_perm (r : ToolRecord) (l : List ToolRecord) : (insertRecord r l).Perm (r :: l) := by
  induction l with
  | nil => exact .refl _
  | cons x xs ih =>
    unfold insertRecord
    split
    · exact .refl _
    · exact (ih.cons x).trans (.swap r x xs)

/-- Inserting a record of a new number keeps the order of tool numbers. -/
theorem insertRecord_ordered {r : ToolRecord} {l : List ToolRecord} (hl : (l.map (·.number)).Pairwise (· < ·))
    (hr : ∀ x ∈ l, x.number ≠ r.number) : ((insertRecord r l).map (·.number)).Pairwise (· < ·) := by
  rw [List.pairwise_map] at hl ⊢
  induction l with
  | nil => exact List.pairwise_singleton _ r
  | cons x xs ih =>
    obtain ⟨hx, hxs⟩ := List.pairwise_cons.1 hl
    have hne := hr x List.mem_cons_self
    unfold insertRecord
    split
    · next hlt =>
      refine List.pairwise_cons.2 ⟨fun y hy => ?_, hl⟩
      rcases List.mem_cons.1 hy with rfl | hy
      · exact hlt
      · exact hlt.trans (hx y hy)
    · refine List.pairwise_cons.2 ⟨fun y hy => ?_, ih hxs fun y hy => hr y (List.mem_cons_of_mem x hy)⟩
      rcases List.mem_cons.1 ((insertRecord_perm r xs).mem_iff.1 hy) with rfl | hy
      · omega
      · exact hx y hy

theorem find_none_iff (s : State) (n : Nat) : s.find n = none ↔ ∀ r ∈ s.table, r.number ≠ n := by
  unfold State.find
  simp only [List.find?_eq_none, beq_iff_eq, ne_eq]

/-- Looking a tool up after an insertion. -/
theorem find_insertRecord (r : ToolRecord) (l : List ToolRecord) (m : Nat) (hr : ∀ x ∈ l, x.number ≠ r.number) :
    (insertRecord r l).find? (fun x => x.number == m)
      = if r.number = m then some r else l.find? fun x => x.number == m := by
  induction l with
  | nil => by_cases h : r.number = m <;> simp [insertRecord, h]
  | cons x xs ih =>
    have hx := hr x List.mem_cons_self
    have hxs := ih fun y hy => hr y (List.mem_cons_of_mem x hy)
    unfold insertRecord
    by_cases h : r.number = m
    · subst h
      split <;> simp [hx, hxs]
    · have hrm : (r.number == m) = false := beq_false_of_ne h
      rw [if_neg h] at hxs ⊢
      split
      · rw [List.find?_cons, hrm]
      · rw [List.find?_cons, List.find?_cons, hxs]

theorem addRecord_writes (r : ToolRecord) (hn : s.find r.number = none) (hs : TableOrdered s) :
    (s.addRecord r).find r.number = some r ∧ (∀ m, m ≠ r.number → (s.addRecord r).find m = s.find m)
      ∧ (s.addRecord r).table.Perm (r :: s.table) ∧ ((s.addRecord r).table.map (·.number)).Pairwise (· < ·) := by
  have hr := (find_none_iff s r.number).1 hn
  have hfind := fun m => find_insertRecord r s.table m hr
  refine ⟨(hfind r.number).trans (if_pos rfl), fun m hm => (hfind m).trans (if_neg hm.symm), insertRecord_perm r s.table,
    insertRecord_ordered hs.1 hr⟩

theorem find_removeRecord_self (s : State) (n : Nat) : (s.removeRecord n).find n = none := by
  rw [find_none_iff]
  intro r hr
  simpa using (List.mem_filter.1 hr).2

theorem find_removeRecord_ne (s : State) {m n : Nat} (h : m ≠ n) : (s.removeRecord n).find m = s.find m := by
  unfold State.find
  rw [removeRecord_table, List.find?_filter]
  congr 1
  funext r
  by_cases hm : r.number = m
  · simp [hm, h]
  · simp [hm]

theorem removeRecord_length {n : Nat} (hs : TableOrdered s) (hf : (s.find n).isSome = true) :
    (s.removeRecord n).table.length + 1 = s.table.length := by
  obtain ⟨r, hr⟩ := Option.isSome_iff_exists.1 hf
  have hnumbers := List.pairwise_map.1 hs.1
  have hnumber := find_number hr
  have hmem := find_mem hr
  have hcount : s.table.countP (fun x => x.number == n) = 1 := by
    clear hr hs hf
    generalize s.table = l at *
    induction l with
    | nil => cases hmem
    | cons x xs ih =>
      obtain ⟨hx, hxs⟩ := List.pairwise_cons.1 hnumbers
      rcases List.mem_cons.1 hmem with rfl | hmem
      · have hnone : xs.countP (fun y => y.number == n) = 0 := by
          rw [List.countP_eq_zero]
          intro y hy
          have := hx y hy
          simp only [beq_iff_eq]
          omega
        rw [List.countP_cons, hnone]
        simp [hnumber]
      · have := hx r hmem
        rw [List.countP_cons, ih hxs hmem, if_neg (by simp only [beq_iff_eq]; omega)]
  have hsplit := List.length_eq_countP_add_countP (fun x => x.number == n) (l := s.table)
  rw [removeRecord_table, ← List.countP_eq_length_filter]
  have hcongr : s.table.countP (fun x => x.number != n) = s.table.countP (fun x => decide ¬ (x.number == n) = true) := by
    apply List.countP_congr
    intro x _
    simp
  omega

theorem raise_writes (s : State) (q : SeatNo) (n : SeatNotice) :
    s.raise q n = { s with notices := { s.notices with seats := (s.raise q n).notices.seats } }
    ∧ (s.raise q n).notices.seats[q] = (match n with
      | .warn => { s.notices.seats[q] with warn := true }
      | .spent => { s.notices.seats[q] with spent := true }
      | .change => { s.notices.seats[q] with change := true }
      | .wait => { s.notices.seats[q] with wait := true }
      | .breakage => { s.notices.seats[q] with breakage := true }
      | .check => { s.notices.seats[q] with check := true }
      | .foreign => { s.notices.seats[q] with foreign := true })
    ∧ ∀ p : SeatNo, p ≠ q → (s.raise q n).notices.seats[p] = s.notices.seats[p] := by
  refine ⟨rfl, (set_get_self _ q _).trans ?_, fun p hp => set_get_ne _ _ hp⟩
  cases n <;> rfl

end Writes

/-- Settles O2: each named write, with what it leaves. -/
theorem namedWritesTouchOneItem : Obligations.NamedWritesTouchOneItem := by
  refine fun s => ⟨fun r => ⟨rfl, fun h => ?put⟩, fun r => ⟨rfl, addRecord_writes r⟩,
    fun n => ⟨rfl, find_removeRecord_self s n, fun m => find_removeRecord_ne s, removeRecord_length⟩,
    fun g x => ⟨rfl, set_get_self _ g x, fun h => set_get_ne _ x⟩,
    fun q x => ⟨rfl, set_get_self _ q x, fun p => set_get_ne _ x⟩,
    fun q v => ⟨rfl, set_get_self _ q _, fun p => set_get_ne _ _⟩,
    fun w x => ⟨rfl, set_get_self _ w x, fun v => set_get_ne _ x⟩,
    fun st x => ⟨rfl, set_get_self _ st x, fun v => set_get_ne _ x⟩,
    fun c x => ⟨rfl, set_get_self _ c x, fun d => set_get_ne _ x⟩,
    fun x => rfl, fun x => rfl, fun x => rfl, raise_writes s⟩
  case put =>
    obtain ⟨x, hx⟩ := Option.isSome_iff_exists.1 h
    exact ⟨find_putRecord_same hx, putRecord_othersKept s r⟩

/-! ### The end of a step -/

theorem commit_stations_of_begins {s a : State} {st : StationNo} (hs : ¬ Lit s st) (ha : Lit a st) :
    (commit s a).stations[st]
      = { a.stations[st] with stretch := some { count := 0, time := a.notices.stretch.ticks } } := by
  have h : (!litCondition s st && litCondition a st) = true := by
    rw [Bool.and_eq_true, Bool.not_eq_true', ← Bool.not_eq_true, litCondition_iff, litCondition_iff]
    exact ⟨hs, ha⟩
  show (startStretch s a)[st] = _
  simp only [startStretch, Fin.getElem_fin, Vector.getElem_ofFn, h, if_true]

theorem commit_stations_of_not_begins {s a : State} {st : StationNo} (h : Lit s st ∨ ¬ Lit a st) :
    (commit s a).stations[st] = a.stations[st] := by
  have h : ¬ (!litCondition s st && litCondition a st) = true := by
    rw [Bool.and_eq_true, Bool.not_eq_true', ← Bool.not_eq_true, litCondition_iff, litCondition_iff]
    exact fun ⟨hs, ha⟩ => h.elim hs (· ha)
  show (startStretch s a)[st] = _
  simp only [startStretch, Fin.getElem_fin, Vector.getElem_ofFn, if_neg h]

/-- The end of a step leaves the part-open flags. -/
theorem commit_partOpen (s a : State) (st : StationNo) :
    (commit s a).stations[st].partOpen = a.stations[st].partOpen := by
  show (startStretch s a)[st].partOpen = _
  simp only [startStretch, Fin.getElem_fin, Vector.getElem_ofFn]
  split <;> rfl

/-- Settles O3: the outputs driven, and the stretch timers by whether a lit condition begins. -/
theorem stepEndDrivesOutputs : Obligations.StepEndDrivesOutputs :=
  fun s a => ⟨commit_pinsDriven s a, rfl, fun _ => commit_stations_of_begins, fun _ => commit_stations_of_not_begins, rfl⟩

/-! ### The part held in reset -/

/-- Settles O6: a command and an event do nothing, and the tick, RESTART and NRST_LOW ask for the level of nRST. -/
theorem heldInResetNothingActs : Obligations.HeldInResetNothingActs := by
  intro i s hn hpower hhigh
  cases i with
  | powerOn n => exact absurd rfl (hpower n)
  | nrstHigh => exact absurd rfl hhigh
  | tick x => rw [exec_tick, hn]; rfl
  | restart => rw [exec_restart, hn]; rfl
  | nrstLow => rw [exec_nrstLow, hn]; rfl
  | statusFrame | commandFrame | fetchFrame | frameOfNoKind | cutRisingEdge | cutFallingEdge | partEnd | engageDelayEnd
  | blankingTimeEnd | filterTimerFires | overtime | checkDurationEnd | stretchTimerEnd | watchdogExpiry
  | conversionEnd => exact whenRunning_held hn
  | _ => exact complete_held hn

/-! ### Resets -/

/-- A reset leaves every block as its chapter gives it, whatever the cause and the level of nRST. -/
theorem resetTo_afterReset (s : State) (cause : ResetCause) (nRST : Bool) : AfterReset (resetTo s cause nRST) where
  table := rfl
  groups g := by simp [resetTo, State.reset]
  seats q := by simp [resetTo, State.reset]
  cuts w := by simp [resetTo, State.reset, Wheel.reset]
  timers w := by simp [resetTo, State.reset, Wheel.reset]
  stations st := by simp [resetTo, State.reset]
  cutLine w := by simp [resetTo, State.reset, Line.reset]
  pendLine st := by simp [resetTo, State.reset, Line.reset]
  scan := ⟨rfl, rfl, rfl⟩
  channels c := by simp [resetTo, State.reset, Channel.reset]
  flags q := by simp [resetTo, State.reset, SeatFlags.clear, SeatFlags.any]
  device := ⟨rfl, rfl, rfl⟩
  stretch := rfl
  link := ⟨rfl, rfl, rfl, rfl, rfl, rfl, rfl⟩
  permits st := by simp [resetTo, State.reset]
  lamps st := by simp [resetTo, State.reset]
  nATTN := rfl
  sdo := rfl
  status := show statusByte State.reset = 0x80 by decide

/-- Settles O5: each reset is `resetTo` with its own cause. -/
theorem resetsActAlike : Obligations.ResetsActAlike := by
  refine fun s => ⟨fun n => ⟨_, rfl, resetTo_afterReset s .power n, rfl, rfl⟩, fun hn => ⟨resetTo s .pin false, ?low,
      resetTo_afterReset s .pin false, rfl, rfl⟩, fun hr => ⟨resetTo s .restart true, ?restart,
      resetTo_afterReset s .restart true, rfl, rfl⟩, fun hn => ⟨resetTo s s.link.cause true, ?high,
      resetTo_afterReset s s.link.cause true, rfl, rfl⟩⟩
  case low => rw [exec_nrstLow, hn]; rfl
  case restart => rw [exec_restart, hr.1, hr.2]; rfl
  case high => rw [exec_nrstHigh, hn]; rfl

/-! ### The state right after a reset -/

theorem reset_tableSound : TableSound State.reset :=
  ⟨⟨List.Pairwise.nil, by decide⟩, fun _ h => nomatch h⟩

theorem reset_group (g : GroupNo) : State.reset.groups[g] = none := by simp [State.reset]

theorem reset_seat (q : SeatNo) : State.reset.seats[q] = { service := .unbound, group := none } := by simp [State.reset]

theorem reset_wheel (w : WheelNo) : State.reset.wheels[w] = Wheel.reset := by simp [State.reset]

/-- With no record, no group and no bound seat, there is nothing that could disagree. -/
theorem reset_consistent : Consistent State.reset where
  table := reset_tableSound
  spent _ h := nomatch h
  loose _ h := nomatch h
  grouped _ h := nomatch h
  members g _ h := by rw [reset_group] at h; cases h
  params g _ h := by rw [reset_group] at h; cases h
  cursor g _ _ h := by rw [reset_group] at h; cases h
  queue g _ h := by rw [reset_group] at h; cases h
  served g _ h := by rw [reset_group] at h; cases h
  bound q := by rw [reset_seat]; simp
  kinds q g h := by rw [reset_seat] at h; cases h
  seated _ h := nomatch h
  vacant _ _ _ h := nomatch h
  changing q h := by rw [reset_seat] at h; cases h
  running q h := by rw [reset_seat] at h; cases h
  due q h := by rw [reset_seat] at h; cases h
  halted q h := by rw [reset_seat] at h; cases h
  resting w _ := by rw [reset_wheel]; exact ⟨rfl, rfl⟩
  cutTimer w := by rw [CutOpen, reset_wheel]; simp [Wheel.reset]
  phases w := by rw [reset_wheel]; simp [Wheel.reset]
  load w := by rw [reset_wheel]; exact .inl rfl
  cutSeen w h := by rw [reset_wheel] at h; cases h
  checks w h := by rw [reset_wheel] at h; exact absurd rfl h
  loaded w h := by rw [reset_wheel] at h; simp [Wheel.reset] at h
  touching w h := by rw [reset_wheel] at h; exact absurd rfl h
  watchdog h := absurd rfl h

/-- Settles O7: the reset state is the one that a power-on leaves of itself. -/
theorem invariantsHoldAtReset : Obligations.InvariantsHoldAtReset :=
  ⟨resetTo_afterReset State.reset .power true, resetTo_pinsDriven State.reset .power true, reset_scanBounded,
    reset_tableSound, reset_consistent, rfl, rfl, rfl⟩

end Sys2Proof.Proofs

/-! The byte layouts of the commands (R180, R181): what each layout accepts, the table of codes (O8), and encoding and
decoding as inverses (O9). -/

namespace Sys2Proof.Proofs

open Sys2Proof.Machine Sys2Proof.Safety Sys2Proof.Laws

/-! ### What each layout accepts: a number of bytes, and its own command -/

section Layouts

variable {args : List Byte} {i : Instr}

theorem decode0_some {f : Instr} : decode0 f args = some i ↔ args = [] ∧ i = f := by
  unfold decode0
  split <;> simp_all [eq_comm]

theorem decode1_some {f : Byte → Instr} : decode1 f args = some i ↔ ∃ a, args = [a] ∧ i = f a := by
  unfold decode1
  split <;> simp_all [eq_comm]

theorem decode2_some {f : Byte → Byte → Instr} : decode2 f args = some i ↔ ∃ a b, args = [a, b] ∧ i = f a b := by
  unfold decode2
  split <;> simp_all [eq_comm]

theorem decodeTool_some {f : Half → Instr} : decodeTool f args = some i ↔ ∃ t, args = Half.bytes t ∧ i = f t := by
  constructor
  · unfold decodeTool
    split
    · next t1 t0 => exact fun h => ⟨half t1 t0, (bytes_half t1 t0).symm, (Option.some.inj h).symm⟩
    · exact fun h => nomatch h
  · rintro ⟨t, rfl, rfl⟩
    exact congrArg (fun x => some (f x)) (half_bytes t)

theorem decodeSeatHalf_some {f : Byte → Half → Instr} :
    decodeSeatHalf f args = some i ↔ ∃ a t, args = [a] ++ Half.bytes t ∧ i = f a t := by
  constructor
  · unfold decodeSeatHalf
    split
    · next a t1 t0 => exact fun h => ⟨a, half t1 t0, by rw [bytes_half]; rfl, (Option.some.inj h).symm⟩
    · exact fun h => nomatch h
  · rintro ⟨a, t, rfl, rfl⟩
    exact congrArg (fun x => some (f a x)) (half_bytes t)

theorem decodeLink_some :
    decodeLink args = some i ↔ ∃ g t x, args = [g] ++ Half.bytes t ++ [x] ∧ i = .link g t x := by
  constructor
  · unfold decodeLink
    split
    · next g t1 t0 x => exact fun h => ⟨g, half t1 t0, x, by rw [bytes_half]; rfl, (Option.some.inj h).symm⟩
    · exact fun h => nomatch h
  · rintro ⟨g, t, x, rfl, rfl⟩
    exact congrArg (fun y => some (Instr.link g y x)) (half_bytes t)

theorem decodeCheck_some :
    decodeCheck args = some i ↔
      ∃ q lo hi d, args = [q] ++ Half.bytes lo ++ Half.bytes hi ++ [d] ∧ i = .check q lo hi d := by
  constructor
  · unfold decodeCheck
    split
    · next q l1 l0 h1 h0 d =>
      exact fun h => ⟨q, half l1 l0, half h1 h0, d, by rw [bytes_half, bytes_half]; rfl, (Option.some.inj h).symm⟩
    · exact fun h => nomatch h
  · rintro ⟨q, lo, hi, d, rfl, rfl⟩
    exact congrArg₂ (fun x y => some (Instr.check q x y d)) (half_bytes lo) (half_bytes hi)

theorem decodeToolMeasures_some {f : Half → Byte → Byte → Measures → Instr} :
    decodeToolMeasures f args = some i ↔
      ∃ t a p m, args = Half.bytes t ++ [a, p] ++ encodeMeasures m ∧ i = f t a p m := by
  constructor
  · unfold decodeToolMeasures
    split
    · next t1 t0 a p rest =>
      intro h
      obtain ⟨m, hm, rfl⟩ := Option.map_eq_some_iff.1 h
      exact ⟨half t1 t0, a, p, m, by rw [bytes_half, encode_of_decodeMeasures hm]; rfl, rfl⟩
    · exact fun h => nomatch h
  · rintro ⟨t, a, p, m, rfl, rfl⟩
    show (decodeMeasures (encodeMeasures m)).map (f (half (t.extractLsb' 8 8) (t.extractLsb' 0 8)) a p) = _
    rw [decode_encodeMeasures, half_bytes]
    rfl

theorem decodeDefine_some : decodeDefine args = some i ↔ ∃ a, args = encodeDefine a ∧ i = .define a := by
  constructor
  · unfold decodeDefine
    split
    · intro h
      refine ⟨_, ?_, (Option.some.inj h).symm⟩
      simp only [encodeDefine, bytes_half, List.cons_append, List.nil_append]
    · exact fun h => nomatch h
  · rintro ⟨a, rfl, rfl⟩
    unfold encodeDefine Half.bytes
    simp only [List.cons_append, List.nil_append, decodeDefine, half_bytes]

end Layouts

/-! ### A number of bytes is enough -/

section Lengths

variable (args : List Byte)

theorem decode0_isSome (f : Instr) : (decode0 f args).isSome = true ↔ args.length = 0 := by
  unfold decode0
  split <;> simp_all

theorem decode1_isSome (f : Byte → Instr) : (decode1 f args).isSome = true ↔ args.length = 1 := by
  rcases args with _ | ⟨a, _ | ⟨b, l⟩⟩ <;> simp [decode1]

theorem decode2_isSome (f : Byte → Byte → Instr) : (decode2 f args).isSome = true ↔ args.length = 2 := by
  rcases args with _ | ⟨a, _ | ⟨b, _ | ⟨c, l⟩⟩⟩ <;> simp [decode2]

theorem decodeTool_isSome (f : Half → Instr) : (decodeTool f args).isSome = true ↔ args.length = 2 := by
  rcases args with _ | ⟨a, _ | ⟨b, _ | ⟨c, l⟩⟩⟩ <;> simp [decodeTool]

theorem decodeSeatHalf_isSome (f : Byte → Half → Instr) : (decodeSeatHalf f args).isSome = true ↔ args.length = 3 := by
  rcases args with _ | ⟨a, _ | ⟨b, _ | ⟨c, _ | ⟨d, l⟩⟩⟩⟩ <;> simp [decodeSeatHalf]

theorem decodeLink_isSome : (decodeLink args).isSome = true ↔ args.length = 4 := by
  rcases args with _ | ⟨a, _ | ⟨b, _ | ⟨c, _ | ⟨d, _ | ⟨e, l⟩⟩⟩⟩⟩ <;> simp [decodeLink]

theorem decodeCheck_isSome : (decodeCheck args).isSome = true ↔ args.length = 6 := by
  rcases args with _ | ⟨a, _ | ⟨b, _ | ⟨c, _ | ⟨d, _ | ⟨e, _ | ⟨f, _ | ⟨g, l⟩⟩⟩⟩⟩⟩⟩ <;> simp [decodeCheck]

/-- A list of at least so many elements has the first ones by name. -/
theorem exists_cons_of_length {α : Type} {l : List α} {n : Nat} (h : l.length = n + 1) :
    ∃ a r, l = a :: r ∧ r.length = n := by
  obtain ⟨a, r, rfl, hr⟩ := List.length_eq_succ_iff.1 h
  exact ⟨a, r, rfl, hr⟩

theorem decodeMeasures_isSome : (decodeMeasures args).isSome = true ↔ args.length = 20 := by
  constructor
  · intro h
    obtain ⟨m, hm⟩ := Option.isSome_iff_exists.1 h
    rw [← encode_of_decodeMeasures hm, encodeMeasures_length]
  · intro h
    iterate 20
      obtain ⟨_, r, rfl, h'⟩ := exists_cons_of_length h
      clear h
      rename' h' => h
    obtain rfl := List.length_eq_zero_iff.1 h
    rfl

theorem decodeToolMeasures_isSome (f : Half → Byte → Byte → Measures → Instr) :
    (decodeToolMeasures f args).isSome = true ↔ args.length = 24 := by
  rcases args with _ | ⟨a, _ | ⟨b, _ | ⟨c, _ | ⟨d, l⟩⟩⟩⟩
  case cons.cons.cons.cons =>
    rw [decodeToolMeasures, Option.isSome_map, decodeMeasures_isSome]
    simp only [List.length_cons]
    omega
  all_goals simp [decodeToolMeasures]

theorem decodeDefine_isSome : (decodeDefine args).isSome = true ↔ args.length = 20 := by
  constructor
  · intro h
    obtain ⟨i, hi⟩ := Option.isSome_iff_exists.1 h
    obtain ⟨a, rfl, _⟩ := decodeDefine_some.1 hi
    rfl
  · intro h
    iterate 20
      obtain ⟨_, r, rfl, h'⟩ := exists_cons_of_length h
      clear h
      rename' h' => h
    obtain rfl := List.length_eq_zero_iff.1 h
    rfl

end Lengths

/-! ### The code byte -/

/-- The code and the number of argument bytes are all that decides whether bytes are a command's. -/
theorem decodeCommand_isSome (code : Byte) (args : List Byte) :
    (decodeCommand code args).isSome = true ↔ (code.toNat, args.length) ∈ commandTable := by
  unfold decodeCommand
  generalize code.toNat = n
  split
  case h_28 => simp_all [commandTable]
  all_goals
    simp [decode0_isSome, decode1_isSome, decode2_isSome, decodeTool_isSome, decodeSeatHalf_isSome, decodeLink_isSome,
      decodeCheck_isSome, decodeToolMeasures_isSome, decodeDefine_isSome, commandTable]

/-- A command decoded is the one whose encoding the bytes are. -/
theorem encode_of_decodeCommand {code : Byte} {args : List Byte} {i : Instr} (h : decodeCommand code args = some i) :
    encodeCommand i = some (code, args) := by
  unfold decodeCommand at h
  have hcode : ∀ n, code.toNat = n → code = BitVec.ofNat 8 n := by
    rintro n rfl
    rw [BitVec.ofNat_toNat, BitVec.setWidth_eq]
  split at h
  case h_28 => cases h
  all_goals
    rename_i hn
    obtain rfl := hcode _ hn
    simp only [decode0_some, decode1_some, decode2_some, decodeTool_some, decodeSeatHalf_some, decodeLink_some,
      decodeCheck_some, decodeToolMeasures_some, decodeDefine_some] at h
  case h_1 | h_2 => obtain ⟨t, a, p, m, rfl, rfl⟩ := h; rfl
  case h_8 => obtain ⟨a, rfl, rfl⟩ := h; rfl
  case h_9 => obtain ⟨g, t, x, rfl, rfl⟩ := h; rfl
  case h_19 => obtain ⟨q, lo, hi, d, rfl, rfl⟩ := h; rfl
  case h_12 | h_14 | h_20 | h_22 | h_24 => obtain ⟨a, b, rfl, rfl⟩ := h; rfl
  case h_23 | h_25 | h_26 | h_27 => obtain ⟨rfl, rfl⟩ := h; rfl
  all_goals obtain ⟨t, rfl, rfl⟩ := h; rfl

/-- The bytes of a command decode to it. -/
theorem decode_of_encodeCommand {code : Byte} {args : List Byte} {i : Instr} (h : encodeCommand i = some (code, args)) :
    decodeCommand code args = some i := by
  cases i <;> cases h
  case enrol t k p m => exact decodeToolMeasures_some.2 ⟨t, k, p, m, rfl, rfl⟩
  case edit t a p m => exact decodeToolMeasures_some.2 ⟨t, a, p, m, rfl, rfl⟩
  case define a => exact decodeDefine_some.2 ⟨a, rfl, rfl⟩
  case link g t x => exact decodeLink_some.2 ⟨g, t, x, rfl, rfl⟩
  case check q lo hi d => exact decodeCheck_some.2 ⟨q, lo, hi, d, rfl, rfl⟩
  case mount q t => exact decodeSeatHalf_some.2 ⟨q, t, rfl, rfl⟩
  case dress q x => exact decodeSeatHalf_some.2 ⟨q, x, rfl, rfl⟩
  case retire t | query t | next t | lock t | unlock t | unlink t => exact decodeTool_some.2 ⟨t, rfl, rfl⟩
  all_goals rfl

/-- The statement of `CodeAndLength` for every row. -/
theorem codeAndLength (i : Instr) : CodeAndLength.Statement i := by
  cases i
  case enrol => exact CodeAndLength.enrol _ _ _ _
  case edit => exact CodeAndLength.edit _ _ _ _
  case define => exact CodeAndLength.define _
  case link => exact CodeAndLength.link _ _ _
  case check => exact CodeAndLength.check _ _ _ _
  case mount => exact CodeAndLength.mount _ _
  case dress => exact CodeAndLength.dress _ _
  case retire => exact CodeAndLength.retire _
  case query => exact CodeAndLength.query _
  case next => exact CodeAndLength.next _
  case lock => exact CodeAndLength.lock _
  case unlock => exact CodeAndLength.unlock _
  case unlink => exact CodeAndLength.unlink _
  case group => exact CodeAndLength.group _
  case bind => exact CodeAndLength.bind _ _
  case unbind => exact CodeAndLength.unbind _
  case swap => exact CodeAndLength.swap _
  case whereSeat => exact CodeAndLength.whereSeat _
  case release => exact CodeAndLength.release _
  case condemn => exact CodeAndLength.condemn _
  case readLoad => exact CodeAndLength.readLoad _
  case setSense => exact CodeAndLength.setSense _ _
  case takeNotices => exact CodeAndLength.takeNotices
  case setLink => exact CodeAndLength.setLink _ _
  case resume => exact CodeAndLength.resume
  case restart => exact CodeAndLength.restart
  case ident => exact CodeAndLength.ident
  all_goals exact ⟨rfl, rfl⟩

theorem codeOf_of_encodeCommand {code : Byte} {args : List Byte} {i : Instr} (h : encodeCommand i = some (code, args)) :
    codeOf i = some code.toNat := by
  have hrow := codeAndLength i
  unfold CodeAndLength.Statement at hrow
  rw [h] at hrow
  exact hrow.2.1

theorem encodeCommand_of_isCommand {i : Instr} (h : i.isCommand = true) : ∃ code args, encodeCommand i = some (code, args) := by
  have hrow := codeAndLength i
  unfold CodeAndLength.Statement at hrow
  cases he : encodeCommand i with
  | some p => exact ⟨p.1, p.2, rfl⟩
  | none =>
    rw [he] at hrow
    exact absurd (h.symm.trans hrow.1) Bool.false_ne_true.symm

/-- Settles O8: the code and the length decide, and the command decoded is encoded with its own code. -/
theorem codesNameTheCommands : Obligations.CodesNameTheCommands :=
  ⟨decodeCommand_isSome, fun _ _ _ h => codeOf_of_encodeCommand (encode_of_decodeCommand h)⟩

/-- Settles O9: encoding and decoding are inverses. -/
theorem commandBytesRoundTrip : Obligations.CommandBytesRoundTrip := by
  refine ⟨fun i hi => ?_, fun _ _ _ => encode_of_decodeCommand⟩
  obtain ⟨code, args, he⟩ := encodeCommand_of_isCommand hi
  exact ⟨code, args, he, decode_of_encodeCommand he⟩

end Sys2Proof.Proofs

/-! How a command concludes (R171, R179): it is refused and changes nothing, it answers a success without data, or it answers
DONE; O11 and the last part of O12 rest on it. The argument checks (O10), and the commands that name a thing (O19) or
report it (O20). -/

namespace Sys2Proof.Proofs

open Sys2Proof.Machine Sys2Proof.Safety Sys2Proof.Laws

/-! ### The ways a command concludes -/

/-- What a command's function can answer at `s`. -/
inductive Concludes (s : State) : State × Reply → Prop where
  | refused (c : ReplyCode) : c.isRefusal = true → Concludes s (s, reply c)
  | without (t : State) (c : ReplyCode) : c.isRefusal = false → Concludes s (t, reply c)
  | reported (t : State) (data : List Byte) : Concludes s (t, report data)

theorem Concludes.eq_of_refusal {s : State} {p : State × Reply} (h : Concludes s p) (hc : p.2.code.isRefusal = true) :
    p = (s, reply p.2.code) := by
  cases h with
  | refused c _ => rfl
  | without t c hn => exact absurd (hn.symm.trans hc) Bool.false_ne_true
  | reported t data => cases hc

theorem Concludes.data_of_not_done {s : State} {p : State × Reply} (h : Concludes s p) (hc : p.2.code ≠ .done) :
    p.2.data = [] := by
  cases h with
  | refused c _ => rfl
  | without t c _ => rfl
  | reported t data => exact absurd rfl hc

section Tables

variable (s : State)

theorem enrolCommand_concludes (t : Half) (k p : Byte) (m : Measures) : Concludes s (enrolCommand t k p m s) := by
  unfold enrolCommand
  split
  · split_ifs
    · exact .refused _ rfl
    · exact .refused _ rfl
    · exact .without _ _ rfl
  · exact .refused _ rfl

theorem editCommand_concludes (t : Half) (a p : Byte) (m : Measures) : Concludes s (editCommand t a p m s) := by
  unfold editCommand
  split
  · split
    · split; exacts [.refused _ rfl, .without _ _ rfl]
    · exact .refused _ rfl
  · exact .refused _ rfl

theorem retireCommand_concludes (t : Half) : Concludes s (retireCommand t s) := by
  unfold retireCommand
  split
  · split
    · split; exacts [.refused _ rfl, .without _ _ rfl]
    · exact .refused _ rfl
  · exact .refused _ rfl

theorem queryCommand_concludes (t : Half) : Concludes s (queryCommand t s) := by
  unfold queryCommand
  split
  · split; exacts [.reported _ _, .refused _ rfl]
  · exact .refused _ rfl

theorem nextCommand_concludes (t : Half) : Concludes s (nextCommand t s) := by
  unfold nextCommand
  split; exacts [.reported _ _, .without _ _ rfl]

theorem lockCommand_concludes (t : Half) : Concludes s (lockCommand t s) := by
  unfold lockCommand
  split
  · split
    · split
      case h_5 | h_6 | h_7 => exact .refused _ rfl
      all_goals exact .without _ _ rfl
    · exact .refused _ rfl
  · exact .refused _ rfl

theorem unlockCommand_concludes (t : Half) : Concludes s (unlockCommand t s) := by
  unfold unlockCommand
  split
  · split
    · split_ifs
      · exact .without _ _ rfl
      · exact .without _ _ rfl
      · exact .refused _ rfl
    · exact .refused _ rfl
  · exact .refused _ rfl

theorem defineCommand_concludes (a : DefineArgs) : Concludes s (defineCommand a s) := by
  unfold defineCommand
  split
  · split; exacts [.refused _ rfl, .without _ _ rfl]
  · exact .refused _ rfl

theorem linkCommand_concludes (g : Byte) (t : Half) (x : Byte) : Concludes s (linkCommand g t x s) := by
  unfold linkCommand
  split
  · split
    · split
      · split_ifs
        · exact .refused _ rfl
        · exact .refused _ rfl
        · exact .refused _ rfl
        · exact .refused _ rfl
        · exact .without _ _ rfl
      · exact .refused _ rfl
    · exact .refused _ rfl
  · exact .refused _ rfl

theorem unlinkCommand_concludes (t : Half) : Concludes s (unlinkCommand t s) := by
  unfold unlinkCommand
  split
  · split
    · split_ifs
      · exact .refused _ rfl
      · exact .refused _ rfl
      · exact .without _ _ rfl
    · exact .refused _ rfl
  · exact .refused _ rfl

theorem groupCommand_concludes (g : Byte) : Concludes s (groupCommand g s) := by
  unfold groupCommand
  split
  · split; exacts [.reported _ _, .refused _ rfl]
  · exact .refused _ rfl

end Tables

section Seats

variable (s : State)

theorem bindCommand_concludes (q g : Byte) : Concludes s (bindCommand q g s) := by
  unfold bindCommand
  split
  · split
    · exact .refused _ rfl
    · split
      · split; exacts [.refused _ rfl, .without _ _ rfl]
      · exact .refused _ rfl
  · exact .refused _ rfl

theorem unbindCommand_concludes (q : Byte) : Concludes s (unbindCommand q s) := by
  unfold unbindCommand
  split
  · split
    case h_4 | h_5 => split; exacts [.refused _ rfl, .without _ _ rfl]
    case h_6 => exact .refused _ rfl
    all_goals exact .without _ _ rfl
  · exact .refused _ rfl

theorem mountCommand_concludes (q : Byte) (t : Half) : Concludes s (mountCommand q t s) := by
  unfold mountCommand
  split
  · split
    · exact .refused _ rfl
    · split
      · split
        · exact .without _ _ rfl
        · split
          · split; exacts [.without _ _ rfl, .refused _ rfl]
          · exact .refused _ rfl
      · exact .refused _ rfl
  · exact .refused _ rfl

theorem swapCommand_concludes (q : Byte) : Concludes s (swapCommand q s) := by
  unfold swapCommand
  split
  · split_ifs
    · exact .refused _ rfl
    · exact .refused _ rfl
    · exact .refused _ rfl
    · exact .without _ _ rfl
  · exact .refused _ rfl

theorem whereCommand_concludes (q : Byte) : Concludes s (whereCommand q s) := by
  unfold whereCommand
  split; exacts [.reported _ _, .refused _ rfl]

theorem releaseCommand_concludes (q : Byte) : Concludes s (releaseCommand q s) := by
  unfold releaseCommand
  split
  · split; exacts [.without _ _ rfl, .refused _ rfl]
  · exact .refused _ rfl

theorem condemnCommand_concludes (q : Byte) : Concludes s (condemnCommand q s) := by
  unfold condemnCommand
  split
  · split; exacts [.without _ _ rfl, .refused _ rfl]
  · exact .refused _ rfl

theorem checkCommand_concludes (q : Byte) (lo hi : Half) (d : Byte) : Concludes s (checkCommand q lo hi d s) := by
  unfold checkCommand
  split
  · split
    · split_ifs
      · exact .refused _ rfl
      · exact .refused _ rfl
      · exact .refused _ rfl
      · exact .without _ _ rfl
    · exact .refused _ rfl
  · exact .refused _ rfl

theorem dressCommand_concludes (q : Byte) (x : Half) : Concludes s (dressCommand q x s) := by
  unfold dressCommand dressWheel
  split
  · split
    · split
      · dsimp only
        split; exacts [.without _ _ rfl, .without _ _ rfl]
      · exact .refused _ rfl
    · exact .refused _ rfl
  · exact .refused _ rfl

theorem readLoadCommand_concludes (c : Byte) : Concludes s (readLoadCommand c s) := by
  unfold readLoadCommand
  split; exacts [.reported _ _, .refused _ rfl]

theorem setSenseCommand_concludes (c n : Byte) : Concludes s (setSenseCommand c n s) := by
  unfold setSenseCommand
  split; exacts [.without _ _ rfl, .refused _ rfl]

end Seats

theorem command_concludes {i : Instr} {f : State → State × Reply} (hf : commandOf i = some f) (s : State) :
    Concludes s (f s) := by
  cases i <;> cases hf
  case enrol => exact enrolCommand_concludes s _ _ _ _
  case edit => exact editCommand_concludes s _ _ _ _
  case retire => exact retireCommand_concludes s _
  case query => exact queryCommand_concludes s _
  case next => exact nextCommand_concludes s _
  case lock => exact lockCommand_concludes s _
  case unlock => exact unlockCommand_concludes s _
  case define => exact defineCommand_concludes s _
  case link => exact linkCommand_concludes s _ _ _
  case unlink => exact unlinkCommand_concludes s _
  case group => exact groupCommand_concludes s _
  case bind => exact bindCommand_concludes s _ _
  case unbind => exact unbindCommand_concludes s _
  case mount => exact mountCommand_concludes s _ _
  case swap => exact swapCommand_concludes s _
  case whereSeat => exact whereCommand_concludes s _
  case release => exact releaseCommand_concludes s _
  case condemn => exact condemnCommand_concludes s _
  case check => exact checkCommand_concludes s _ _ _ _
  case dress => exact dressCommand_concludes s _ _
  case readLoad => exact readLoadCommand_concludes s _
  case setSense => exact setSenseCommand_concludes s _ _
  case takeNotices => exact .reported _ _
  case setLink => exact .without _ _ rfl
  case resume => exact .without _ _ rfl
  case ident => exact .reported _ _

/-! ### Commands and their functions -/

/-- A command but RESTART completes as its own function says. -/
theorem exec_of_commandOf {i : Instr} {f : State → State × Reply} (hf : commandOf i = some f) (s : State) :
    exec i s = complete i f s := by
  cases i <;> cases hf <;> rfl

theorem commandOf_of_isCommand {i : Instr} (h : i.isCommand = true) : i = .restart ∨ ∃ f, commandOf i = some f := by
  cases hf : commandOf i with
  | some f => exact .inr ⟨f, rfl⟩
  | none =>
    cases i
    case restart => exact .inl rfl
    all_goals cases hf
    all_goals cases h

/-- RESTART stores no reply. -/
theorem restart_stores_nothing {s t : State} {r : Reply} (hr : Ready s .restart) (h : exec .restart s = .next t) :
    ¬ Stored t r := by
  rw [exec_restart, hr.1, hr.2] at h
  obtain rfl := Host.Outcome.next.inj h
  exact fun h => nomatch h

theorem onlyReply_refl (s : State) : OnlyReply s s := rfl

/-- Settles O11: a command held in reset or not taken up changes nothing at all, and one that is refused has changed
nothing when its reply is stored. -/
theorem refusedCommandChangesNothing : Obligations.RefusedCommandChangesNothing := by
  intro i s t r hp hi h hstored hrefusal
  cases hn : s.nRST with
  | false =>
    obtain rfl : s = t := by
      obtain rfl | ⟨f, hf⟩ := commandOf_of_isCommand hi
      · rw [exec_restart, hn] at h
        exact Host.Outcome.next.inj h
      · rw [exec_of_commandOf hf, complete_held hn] at h
        exact Host.Outcome.next.inj h
    exact onlyReply_refl s
  | true =>
    cases hm : s.link.mayComplete i with
    | false =>
      obtain rfl : s = t := by
        obtain rfl | ⟨f, hf⟩ := commandOf_of_isCommand hi
        · rw [exec_restart, hn, hm] at h
          exact Host.Outcome.next.inj h
        · rw [exec_of_commandOf hf, complete_waits hn hm, commit_self hp] at h
          exact Host.Outcome.next.inj h
      exact onlyReply_refl s
    | true =>
      obtain rfl | ⟨f, hf⟩ := commandOf_of_isCommand hi
      · exact absurd hstored (restart_stores_nothing ⟨hn, hm⟩ h)
      · rw [exec_of_commandOf hf, complete_eq ⟨hn, hm⟩] at h
        obtain rfl := Host.Outcome.next.inj h
        obtain rfl : (f s).2 = r := ReplyBuffer.stored.inj ((stored_answer s (f s).1 (f s).2).symm.trans hstored)
        obtain ⟨t, ht, _, honly⟩ := answers_of ⟨hn, hm⟩ (exec_of_commandOf hf s)
          ((command_concludes hf s).eq_of_refusal hrefusal)
        rw [exec_of_commandOf hf, complete_eq ⟨hn, hm⟩] at ht
        obtain rfl := Host.Outcome.next.inj ht
        exact honly hp

/-- A reply that is not DONE carries no data. -/
theorem reply_data_of_not_done {i : Instr} {s t : State} {r : Reply} (hi : i.isCommand = true) (hr : Ready s i)
    (h : exec i s = .next t) (hst : Stored t r) (hc : r.code ≠ .done) : r.data = [] := by
  obtain rfl | ⟨f, hf⟩ := commandOf_of_isCommand hi
  · exact absurd hst (restart_stores_nothing hr h)
  · rw [exec_of_commandOf hf, complete_eq hr] at h
    obtain rfl := Host.Outcome.next.inj h
    obtain rfl : (f s).2 = r := ReplyBuffer.stored.inj ((stored_answer s (f s).1 (f s).2).symm.trans hst)
    exact (command_concludes hf s).data_of_not_done hc

/-! ### The argument checks -/

theorem toolArg_isSome (t : Half) : (toolArg t).isSome = toolOk t := by
  cases h : toolOk t with
  | true => rw [toolArg_of_ok h]; rfl
  | false => rw [toolArg_eq_none h]; rfl

theorem kindArg_isSome (b : Byte) : (kindArg b).isSome = (b == 1 || b == 2) := by
  by_cases h1 : b = 1
  · subst h1; rfl
  · by_cases h2 : b = 2
    · subst h2; rfl
    · rw [kindArg, if_neg h1, if_neg h2, beq_false_of_ne h1, beq_false_of_ne h2]
      rfl

theorem groupKindArg_isSome (b : Byte) : (groupKindArg b).isSome = decide (b.toNat < 3) := by
  by_cases h : b.toNat > 2
  · rw [groupKindArg_gt h, decide_eq_false (by omega)]
    rfl
  · obtain ⟨k, hk, _⟩ := groupKindArg_le h
    rw [hk, decide_eq_true (by omega)]
    rfl

theorem policyArg_isSome (b : Byte) : (policyArg b).isSome = decide (b.toNat < 2) := by
  by_cases h : b.toNat > 1
  · rw [policyArg_gt h, decide_eq_false (by omega)]
    rfl
  · obtain ⟨k, hk⟩ := policyArg_le h
    rw [hk, decide_eq_true (by omega)]
    rfl

/-- Both limits are clamped to 1023 before they are compared. -/
theorem windowOk_iff (lo hi : Half) : windowOk lo hi = true ↔ ¬ probeLimitArg hi < probeLimitArg lo := by
  unfold windowOk probeLimitArg
  rw [decide_eq_true_eq]
  omega

theorem checkCommand_bad_arg {q : Byte} {lo hi : Half} {d : Byte} {s : State}
    (h : (Instr.check q lo hi d).wf = false) : checkCommand q lo hi d s = (s, reply .badArg) := by
  unfold checkCommand
  split
  · next p hp =>
    have hseat : q.toNat = p.val := by
      unfold seatArg at hp
      split at hp
      · cases hp; rfl
      · cases hp
    split
    · next w hw =>
      have hok : seatOk q = true := by rw [← seatArg_isSome, hp]; rfl
      have hwheel : q.toNat % 4 < 2 := by
        unfold wheelOf at hw
        split at hw
        · omega
        · cases hw
      simp only [Instr.wf, hok, hwheel, decide_true, Bool.true_and] at h
      rw [if_pos]
      by_contra hn
      rw [(windowOk_iff lo hi).2 hn] at h
      cases h
    · rfl
  · rfl

/-- A command whose argument checks fail is refused BAD_ARG by its own function. -/
theorem command_bad_arg {i : Instr} {f : State → State × Reply} (hf : commandOf i = some f) (h : i.wf = false)
    (s : State) : f s = (s, reply .badArg) := by
  cases i <;> cases hf
  case next | takeNotices | setLink | resume | ident => cases h
  case check => exact checkCommand_bad_arg h
  case edit | retire | query | lock | unlock | unlink =>
    simp only [editCommand, retireCommand, queryCommand, lockCommand, unlockCommand, unlinkCommand, toolArg_eq_none h]
  case unbind | swap | whereSeat | release | condemn | dress =>
    simp only [unbindCommand, swapCommand, whereCommand, releaseCommand, condemnCommand, dressCommand, seatArg_eq_none h]
  case readLoad | setSense => simp only [readLoadCommand, setSenseCommand, channelArg_eq_none h]
  case group => simp only [groupCommand, groupArg_eq_none h]
  case enrol =>
    unfold enrolCommand
    split
    · next ht hk =>
      rw [Instr.wf, ← toolArg_isSome, ← kindArg_isSome, ht, hk] at h
      cases h
    · rfl
  case define =>
    unfold defineCommand
    split
    · next hg hk hp =>
      rw [Instr.wf, ← groupArg_isSome, ← groupKindArg_isSome, ← policyArg_isSome, hg, hk, hp] at h
      cases h
    · rfl
  case link =>
    unfold linkCommand
    split
    · next hg ht => simp [Instr.wf, ← groupArg_isSome, ← toolArg_isSome, hg, ht] at h
    · rfl
  case bind =>
    unfold bindCommand
    split
    · next hq hg => simp [Instr.wf, ← seatArg_isSome, ← groupArg_isSome, hq, hg] at h
    · rfl
  case mount =>
    unfold mountCommand
    split
    · next hq ht => simp [Instr.wf, ← seatArg_isSome, ← toolArg_isSome, hq, ht] at h
    · rfl

/-- Settles O10: RESTART has no argument, and every other command's own function refuses. -/
theorem illFormedCommandRefused : Obligations.IllFormedCommandRefused := by
  intro i s hi hwf hr
  obtain rfl | ⟨f, hf⟩ := commandOf_of_isCommand hi
  · cases hwf
  · exact answers_of hr (exec_of_commandOf hf s) (command_bad_arg hf hwf s)

/-! ### The commands that name a thing -/

theorem command_unknown_tool {tool : Half} {i : Instr} {s : State}
    (hi : i ∈ [Instr.retire tool, .query tool, .lock tool, .unlock tool, .unlink tool]) (h0 : tool ≠ 0)
    (h1 : tool ≠ 0xFFFF) (hf : s.find tool.toNat = none) :
    ∃ f, commandOf i = some f ∧ f s = (s, reply .unknownTool) := by
  simp only [List.mem_cons, List.not_mem_nil, or_false] at hi
  have ht := toolArg_ne h0 h1
  rcases hi with rfl | rfl | rfl | rfl | rfl
  · exact ⟨_, rfl, by simp only [retireCommand, ht, hf]⟩
  · exact ⟨_, rfl, by simp only [queryCommand, ht, hf]⟩
  · exact ⟨_, rfl, by simp only [lockCommand, ht, hf]⟩
  · exact ⟨_, rfl, by simp only [unlockCommand, ht, hf]⟩
  · exact ⟨_, rfl, by simp only [unlinkCommand, ht, hf]⟩

theorem releaseCommand_of_not_halted {seat : Byte} {s : State} {q : SeatNo} (hq : seat.toNat = q.val)
    (hs : s.seats[q].service ≠ .halted) : releaseCommand seat s = (s, reply .badState) := by
  simp only [releaseCommand, seatArg_of_toNat hq, if_neg hs]

theorem condemnCommand_of_not_halted {seat : Byte} {s : State} {q : SeatNo} (hq : seat.toNat = q.val)
    (hs : s.seats[q].service ≠ .halted) : condemnCommand seat s = (s, reply .badState) := by
  simp only [condemnCommand, seatArg_of_toNat hq, if_neg hs]

/-- Settles O19: each command's own function looks its tool up, or asks for the seat's service. -/
theorem namedThingMustExist : Obligations.NamedThingMustExist := by
  refine ⟨fun tool s i hi hr h0 h1 hf => ?tool, fun seat s q hq hs => ⟨fun hr => ?release, fun hr => ?condemn⟩⟩
  case tool =>
    obtain ⟨f, hi, hfs⟩ := command_unknown_tool hi h0 h1 hf
    exact answers_of hr (exec_of_commandOf hi s) hfs
  case release => exact answers_of hr (exec_release s seat) (releaseCommand_of_not_halted hq hs)
  case condemn => exact answers_of hr (exec_condemn s seat) (condemnCommand_of_not_halted hq hs)

/-! ### The commands that report -/

theorem nextCommand_of_least {t : Half} {s : State} {r : ToolRecord} (hs : TableOrdered s) (hr : r ∈ s.table)
    (ht : t.toNat < r.number) (hleast : ∀ x ∈ s.table, t.toNat < x.number → r.number ≤ x.number) :
    nextCommand t s = (s, report (toolReport r)) := by
  simp only [nextCommand, find_least t.toNat hs.1 hr ht hleast]

theorem nextCommand_of_last {t : Half} {s : State} (h : ∀ x ∈ s.table, x.number ≤ t.toNat) :
    nextCommand t s = (s, reply .endOfTable) := by
  have hnone : s.table.find? (fun r => decide (t.toNat < r.number)) = none :=
    List.find?_eq_none.2 fun x hx => by rw [decide_eq_true_eq]; exact Nat.not_lt.2 (h x hx)
  simp only [nextCommand, hnone]

/-- The ident report, byte by byte. -/
theorem identReport_eq (s : State) :
    identReport s =
      ([0x4E, 0x5A, 0x17, 0xE8, 1, 128, 32, 16,
       (match s.link.cause with | .power => 1 | .pin => 2 | .restart => 3)] : List Byte)
      ++ [s.link.millis.extractLsb' 24 8, s.link.millis.extractLsb' 16 8, s.link.millis.extractLsb' 8 8,
          s.link.millis.extractLsb' 0 8]
      ++ ([(match s.link.period with | .off => 0 | .ms50 => 1 | .ms200 => 2 | .ms1000 => 3),
          (match s.notices.stretch with | .ms500 => 0 | .ms1000 => 1 | .ms2000 => 2 | .ms4000 => 3)] : List Byte) := by
  unfold identReport
  rw [byte4_eq]
  cases s.link.cause <;> cases s.link.period <;> cases s.notices.stretch <;> rfl

/-- Settles O20: each command's own function answers its report and leaves the state. -/
theorem reportingCommandsReport : Obligations.ReportingCommandsReport := by
  refine ⟨fun tool s r hr h0 h1 hf => ?query, fun t s r hr hs hmem ht hleast => ?next, fun t s hr h => ?last,
    fun group s g grp hr hg => ⟨fun hs => ?noGroup, fun hs => ?group⟩, fun seat s q hr hq => ?whereSeat, fun s hr => ?ident⟩
  case query => exact completesAs_of hr (exec_query s tool) (by simp only [queryCommand, toolArg_ne h0 h1, hf, report])
  case next => exact completesAs_of hr (exec_next s t) (nextCommand_of_least hs hmem ht hleast)
  case last => exact completesAs_of hr (exec_next s t) (nextCommand_of_last h)
  case noGroup => exact answers_of hr (exec_group s group) (by simp only [groupCommand, groupArg_of_toNat hg, hs])
  case group =>
    exact completesAs_of hr (exec_group s group) (by simp only [groupCommand, groupArg_of_toNat hg, hs, report])
  case whereSeat =>
    exact completesAs_of hr (exec_whereSeat s seat) (by simp only [whereCommand, seatArg_of_toNat hq, report])
  case ident => exact completesAs_of hr (exec_ident s) (congrArg (fun d => (s, report d)) (identReport_eq s))

end Sys2Proof.Proofs

/-! The reports (R185): every field of the tool report, the group report and the seat report stands at its offset, and O12
from these. A report is its fields one after another, and
a field stands where those before it end. -/

namespace Sys2Proof.Proofs

open Sys2Proof.Machine Sys2Proof.Safety Sys2Proof.Laws

/-! ### A report as its fields, one after another -/

section Fields

variable {fields : List (List Byte)} {offset n : Nat}

/-- The field of a number stands where the lengths of the fields before it end. -/
def StandsAt (fields : List (List Byte)) (k offset : Nat) (bs : List Byte) : Prop :=
  fields[k]? = some bs ∧ ((fields.take k).map (·.length)).sum = offset

/-- A field is read from where it stands, whatever follows the report. -/
theorem fieldAt_of_standsAt {k : Nat} {bs rest : List Byte} (h : StandsAt fields k offset bs) :
    fieldAt (fields.flatten ++ rest) offset bs.length = fieldAt (bs ++ []) 0 bs.length := by
  obtain ⟨hk, rfl⟩ := h
  obtain ⟨hlt, hbs⟩ := List.getElem?_eq_some_iff.1 hk
  have hsplit : fields.flatten = (fields.take k).flatten ++ (bs ++ (fields.drop (k + 1)).flatten) := by
    rw [← hbs, ← List.flatten_cons, ← List.drop_eq_getElem_cons hlt, ← List.flatten_append, List.take_append_drop]
  have hlength : ((fields.take k).map (·.length)).sum = (fields.take k).flatten.length + 0 := by
    rw [List.length_flatten]
    rfl
  rw [hsplit, hlength, List.append_assoc, fieldAt_append, fieldAt, fieldAt]
  simp only [List.drop_zero, List.append_assoc, List.take_left']

theorem standsAt_of_widths {k : Nat} {bs : List Byte} {widths : List Nat} (hw : fields.map (·.length) = widths)
    (h : fields[k]? = some bs) (hoffset : (widths.take k).sum = offset) : StandsAt fields k offset bs :=
  ⟨h, by rw [List.map_take, hw, hoffset]⟩

theorem fieldAt_of_byte1 {k : Nat} {rest : List Byte} (h : StandsAt fields k offset (byte1 n)) :
    fieldAt (fields.flatten ++ rest) offset 1 = n % 256 :=
  (fieldAt_of_standsAt h).trans (fieldAt_byte1 n [])

theorem shows_of_byte1 {k : Nat} {rest : List Byte} (h : StandsAt fields k offset (byte1 n)) :
    Shows (fields.flatten ++ rest) offset 1 n :=
  fun hn => (fieldAt_of_standsAt h).trans (shows_byte1 n [] hn)

theorem shows_of_byte2 {k : Nat} {rest : List Byte} (h : StandsAt fields k offset (byte2 n)) :
    Shows (fields.flatten ++ rest) offset 2 n :=
  fun hn => (fieldAt_of_standsAt h).trans (shows_byte2 n [] hn)

theorem shows_of_byte3 {k : Nat} {rest : List Byte} (h : StandsAt fields k offset (byte3 n)) :
    Shows (fields.flatten ++ rest) offset 3 n :=
  fun hn => (fieldAt_of_standsAt h).trans (shows_byte3 n [] hn)

theorem showsItem_of_byte1 {α : Type} {values : List α} {x : α} {k : Nat} {rest : List Byte}
    (h : StandsAt fields k offset (byte1 n)) (hx : values[n % 256]? = some x) :
    ShowsItem (fields.flatten ++ rest) offset values x := by
  rw [ShowsItem, fieldAt_of_byte1 h]
  exact hx

/-- A number below 256 or its absence, as a byte. -/
theorem fieldAt_of_orFF {m k : Nat} {x : Option (Fin m)} {rest : List Byte}
    (h : StandsAt fields k offset (byte1 (orFF (x.map (·.val))))) (hm : m ≤ 256) :
    fieldAt (fields.flatten ++ rest) offset 1 = (x.map (·.val)).getD 0xFF := by
  rw [fieldAt_of_byte1 h]
  cases x with
  | none => rfl
  | some i => exact Nat.mod_eq_of_lt (Nat.lt_of_lt_of_le i.isLt hm)

/-- Bits that are 0 read as bits beyond the end. -/
theorem getD_append_false (bits : List Bool) (k i : Nat) :
    (bits ++ List.replicate k false).getD i false = bits.getD i false := by
  rw [List.getD_eq_getElem?_getD, List.getD_eq_getElem?_getD]
  by_cases h : i < bits.length
  · rw [List.getElem?_append_left h]
  · rw [List.getElem?_append_right (by omega), List.getElem?_replicate, List.getElem?_eq_none (by omega)]
    split <;> rfl

/-- A byte made of bits. -/
theorem showsBits_of_standsAt {k : Nat} {rest : List Byte} {b0 b1 b2 b3 b4 b5 b6 b7 : Bool}
    (h : StandsAt fields k offset [bits8 b0 b1 b2 b3 b4 b5 b6 b7]) :
    ShowsBits (fields.flatten ++ rest) offset [b0, b1, b2, b3, b4, b5, b6, b7] := by
  obtain ⟨hk, rfl⟩ := h
  obtain ⟨hlt, hbs⟩ := List.getElem?_eq_some_iff.1 hk
  refine ⟨_, ?_, bits8_bit b0 b1 b2 b3 b4 b5 b6 b7⟩
  have hsplit : fields.flatten = (fields.take k).flatten ++ (fields[k] ++ (fields.drop (k + 1)).flatten) := by
    rw [← List.flatten_cons, ← List.drop_eq_getElem_cons hlt, ← List.flatten_append, List.take_append_drop]
  rw [hsplit, hbs, List.append_assoc, ← List.length_flatten, List.getElem?_append_right (Nat.le_refl _), Nat.sub_self]
  rfl

/-- The bits shown may leave out those at the end that are 0. -/
theorem showsBits_trim {d : List Byte} {bits : List Bool} {k : Nat}
    (h : ShowsBits d offset (bits ++ List.replicate k false)) : ShowsBits d offset bits := by
  obtain ⟨b, hb, hbits⟩ := h
  exact ⟨b, hb, fun i hi => (hbits i hi).trans (getD_append_false bits k i)⟩

end Fields

/-! ### Items by their numbers -/

theorem kind_code (k : Kind) : k.code % 256 = kindCode (some k) := by cases k <;> rfl

theorem state_code (v : RecState) : recordStates[v.code % 256]? = some v := by cases v <;> rfl

theorem policy_code (p : Policy) : policies[p.code % 256]? = some p := by cases p <;> rfl

theorem service_code (v : Service) : serviceStates[v.code % 256]? = some v := by cases v <;> rfl

theorem phase_code (p : Phase) : cutPhases[p.code % 256]? = some p := by cases p <;> rfl

theorem probeResult_code (r : ProbeResult) : probeResults[r.code % 256]? = some r := by cases r <;> rfl

theorem cause_code (c : Option BreakCause) :
    breakCauses[(match c with | some c => c.code | none => 0) % 256]? = some c := by
  cases c with
  | none => rfl
  | some c => cases c <;> rfl

/-! ### The tool report -/

/-- The fields of the tool report. -/
def toolFields (r : ToolRecord) : List (List Byte) :=
  [byte2 r.number, byte1 r.kind.code, byte1 r.state.code, byte1 (orFF (r.group.map (·.val))),
   byte1 (orFF (r.seat.map (·.val))),
   [bits8 r.partsLimit.isSome r.wearLimit.isSome r.dressLimit.isSome r.stockFloor.isSome false false false false],
   byte3 r.partsUsed, byte3 (r.partsLimit.getD 0), byte3 r.wearUsed, byte3 (r.wearLimit.getD 0),
   byte2 r.dressUsed, byte2 (r.dressLimit.getD 0), byte2 r.stockNow, byte2 r.stockStart,
   byte2 (r.stockFloor.getD 0), byte2 r.wearCarry,
   [bits8 r.ended.parts r.ended.wear r.ended.dress r.ended.stock false false false r.warned],
   byte1 (match r.cause with | some c => c.code | none => 0)]

theorem toolReport_eq (r : ToolRecord) : toolReport r = (toolFields r).flatten ++ [] := by
  simp only [toolReport, toolFields, List.flatten_cons, List.flatten_nil, List.append_assoc, List.append_nil] <;> rfl

theorem toolFields_standsAt (r : ToolRecord) {k offset : Nat} {bs : List Byte} (h : (toolFields r)[k]? = some bs)
    (hoffset : (([2, 1, 1, 1, 1, 1, 3, 3, 3, 3, 2, 2, 2, 2, 2, 2, 1, 1] : List Nat).take k).sum = offset) :
    StandsAt (toolFields r) k offset bs :=
  standsAt_of_widths (by
    simp only [toolFields, List.map_cons, List.map_nil, byte1_length, byte2_length, byte3_length,
      List.length_singleton]) h hoffset

theorem toolReport_presence (r : ToolRecord) : ShowsBits ((toolFields r).flatten ++ []) 6
    [r.partsLimit.isSome, r.wearLimit.isSome, r.dressLimit.isSome, r.stockFloor.isSome, false, false, false, false] :=
  showsBits_of_standsAt (k := 5) (toolFields_standsAt r rfl rfl)

theorem toolReport_layout (r : ToolRecord) : ToolLayout r (toolReport r) := by
  rw [toolReport_eq]
  exact
    { length := rfl
      number := shows_of_byte2 (k := 0) (toolFields_standsAt r rfl rfl)
      kind := (fieldAt_of_byte1 (k := 1) (toolFields_standsAt r rfl rfl)).trans (kind_code r.kind)
      state := showsItem_of_byte1 (k := 2) (toolFields_standsAt r rfl rfl) (state_code r.state)
      group := fieldAt_of_orFF (k := 3) (x := r.group) (toolFields_standsAt r rfl rfl) (by decide)
      seat := fieldAt_of_orFF (k := 4) (x := r.seat) (toolFields_standsAt r rfl rfl) (by decide)
      presence := by
        exact showsBits_trim (k := 4) (toolReport_presence r)
      partsUsed := shows_of_byte3 (k := 6) (toolFields_standsAt r rfl rfl)
      partsLimit := shows_of_byte3 (k := 7) (toolFields_standsAt r rfl rfl)
      wearUsed := shows_of_byte3 (k := 8) (toolFields_standsAt r rfl rfl)
      wearLimit := shows_of_byte3 (k := 9) (toolFields_standsAt r rfl rfl)
      dressUsed := shows_of_byte2 (k := 10) (toolFields_standsAt r rfl rfl)
      dressLimit := shows_of_byte2 (k := 11) (toolFields_standsAt r rfl rfl)
      stockNow := shows_of_byte2 (k := 12) (toolFields_standsAt r rfl rfl)
      stockStart := shows_of_byte2 (k := 13) (toolFields_standsAt r rfl rfl)
      stockFloor := shows_of_byte2 (k := 14) (toolFields_standsAt r rfl rfl)
      wearCarry := shows_of_byte2 (k := 15) (toolFields_standsAt r rfl rfl)
      flags := by
        have h := showsBits_of_standsAt (fields := toolFields r) (rest := []) (k := 16) (toolFields_standsAt r rfl rfl)
        exact h
      cause := showsItem_of_byte1 (k := 17) (toolFields_standsAt r rfl rfl) (cause_code r.cause) }

/-! ### The group report -/

/-- The fields before the member list: the layout of DEFINE, the cursor, the number of bound seats, the number of members. -/
def groupFields (g : GroupNo) (grp : Group) (bound : Nat) : List (List Byte) :=
  [byte1 g.val, byte1 grp.kind.code, byte1 grp.params.policy.code, byte2 grp.params.nominalLoad,
   byte1 grp.params.warnMargin, byte1 grp.params.rollWear, byte2 grp.params.lossFloor,
   byte2 grp.params.overloadCeiling, byte2 grp.params.contactLevel, byte1 grp.params.engageDelay,
   byte1 grp.params.blankingTime, byte2 grp.params.filterTime, fastByte grp.params.fast,
   byte2 grp.params.maxCutTime, byte1 (orFF grp.cursor), byte1 bound, byte1 grp.members.length]

/-- The bytes from the member list on. -/
def groupLists (grp : Group) : List Byte :=
  grp.members.flatMap byte2 ++ (byte1 grp.queue.length ++ grp.queue.flatMap fun q => byte1 q.val)

/-- The byte that stands for yes. -/
def fastYes : Byte := if Config.fastYesByte = 0 then 1 else Config.fastYesByte

theorem fastYes_ne_zero : fastYes ≠ 0 := by
  unfold fastYes
  split
  · decide
  · assumption

theorem fastByte_true : fastByte true = [fastYes] := rfl

theorem fieldAt_singleton (b : Byte) : fieldAt ([b] ++ []) 0 1 = b.toNat := by
  simp [fieldAt]

/-- FAST is shown by one byte, which is 0 for no and not 0 for yes. -/
theorem fastByte_shows (fast : Bool) : fieldAt (fastByte fast ++ []) 0 (fastByte fast).length = 0 ↔ fast = false := by
  cases fast with
  | false =>
    refine iff_of_true ?_ rfl
    rw [fastByte_length]
    exact fieldAt_singleton 0
  | true =>
    refine iff_of_false (fun h => fastYes_ne_zero (BitVec.eq_of_toNat_eq ?_)) Bool.noConfusion
    rw [fastByte_true, List.length_singleton, fieldAt_singleton] at h
    exact h

theorem orFF_eq (x : Option Nat) : orFF x = x.getD 0xFF := by cases x <;> rfl

section Group

variable (g : GroupNo) (grp : Group) (n : Nat)

theorem groupReport_eq : groupReport g grp n = (groupFields g grp n).flatten ++ groupLists grp := by
  unfold groupReport groupFields groupLists
  simp only [List.flatten_cons, List.flatten_nil, List.append_assoc, List.append_nil]

theorem groupFields_length : (groupFields g grp n).flatten.length = 23 := by
  rw [List.length_flatten]
  simp only [groupFields, List.map_cons, List.map_nil, byte1_length, byte2_length, fastByte_length]
  rfl

theorem group_shows_lists {offset width m : Nat} (hs : Shows (groupLists grp) offset width m) :
    Shows ((groupFields g grp n).flatten ++ groupLists grp) (23 + offset) width m := by
  rw [← groupFields_length g grp n]
  exact shows_append hs

theorem group_fieldAt_queue (i : Nat) (q : SeatNo) (hq : grp.queue[i]? = some q) :
    fieldAt ((groupFields g grp n).flatten ++ groupLists grp) (24 + 2 * grp.members.length + i) 1 = q.val := by
  have hoffset : 24 + 2 * grp.members.length + i
      = (groupFields g grp n).flatten.length
        + ((grp.members.flatMap byte2).length + ((byte1 grp.queue.length).length + i)) := by
    rw [groupFields_length, flatMap_byte2_length, byte1_length]
    omega
  rw [hoffset, groupLists, fieldAt_append, fieldAt_append, fieldAt_append]
  exact fieldAt_seats grp.queue i q hq

/-- The fields from FAST on stand where its one byte ends. -/
theorem groupFields_standsAt {k offset : Nat} {bs : List Byte} (h : (groupFields g grp n)[k]? = some bs)
    (hoffset : (([1, 1, 1, 2, 1, 1, 2, 2, 2, 1, 1, 2, 1, 2, 1, 1, 1] : List Nat).take k).sum = offset) :
    StandsAt (groupFields g grp n) k offset bs :=
  standsAt_of_widths (by
    simp only [groupFields, List.map_cons, List.map_nil, byte1_length, byte2_length, fastByte_length]) h hoffset

theorem groupReport_layout : GroupLayout g grp n (groupReport g grp n) := by
  have stands := @groupFields_standsAt g grp n
  rw [groupReport_eq]
  exact
    { length := by
        rw [List.length_append, groupFields_length, groupLists, List.length_append, List.length_append,
          flatMap_byte2_length, byte1_length, flatMap_byte1_length]
        omega
      group := (fieldAt_of_byte1 (stands (k := 0) rfl rfl)).trans (Nat.mod_eq_of_lt (by omega))
      kind := (fieldAt_of_byte1 (stands (k := 1) rfl rfl)).trans (kind_code grp.kind)
      policy := showsItem_of_byte1 (stands (k := 2) rfl rfl) (policy_code grp.params.policy)
      nominalLoad := shows_of_byte2 (stands (k := 3) rfl rfl)
      warnMargin := shows_of_byte1 (stands (k := 4) rfl rfl)
      rollWear := shows_of_byte1 (stands (k := 5) rfl rfl)
      lossFloor := shows_of_byte2 (stands (k := 6) rfl rfl)
      overloadCeiling := shows_of_byte2 (stands (k := 7) rfl rfl)
      contactLevel := shows_of_byte2 (stands (k := 8) rfl rfl)
      engageDelay := shows_of_byte1 (stands (k := 9) rfl rfl)
      blankingTime := shows_of_byte1 (stands (k := 10) rfl rfl)
      filterTime := shows_of_byte2 (stands (k := 11) rfl rfl)
      fast := by
        have h := fieldAt_of_standsAt (rest := groupLists grp) (stands (k := 12) (offset := 17) rfl rfl)
        rw [fastByte_length] at h
        rw [h]
        have hzero := fastByte_shows grp.params.fast
        rw [fastByte_length] at hzero
        exact hzero
      maxCutTime := shows_of_byte2 (stands (k := 13) rfl rfl)
      cursor := by
        rw [← orFF_eq]
        exact shows_of_byte1 (stands (k := 14) rfl rfl)
      bound := shows_of_byte1 (stands (k := 15) rfl rfl)
      members := ⟨shows_of_byte1 (stands (k := 16) rfl rfl),
        fun i m hm => group_shows_lists g grp n (shows_byte2s _ i m hm _)⟩
      queue := ⟨group_shows_lists g grp n (by
          rw [groupLists, ← flatMap_byte2_length grp.members]
          exact shows_append (k := 0) (shows_byte1 _ _)), group_fieldAt_queue g grp n⟩ }

end Group

/-! ### The seat report -/

/-- The fields of the seat report. -/
def seatFields (s : State) (q : SeatNo) : List (List Byte) :=
  [byte1 q.val, byte1 s.seats[q].service.code,
   byte1 (match wheelOf q with | some w => s.wheels[w].phase.code | none => 0),
   byte1 (orFF (s.seats[q].group.map (·.val))),
   byte2 (match s.holder q with | some r => r.number | none => 0),
   [bits8 s.wheels[pairedWheel q].cutSeen s.stations[stationOf q].partOpen false false false false false false],
   byte1 (match wheelOf q with | some w => s.wheels[w].lastResult.code | none => 0)]

theorem seatReport_eq (s : State) (q : SeatNo) : seatReport s q = (seatFields s q).flatten ++ [] := by
  simp only [seatReport, seatFields, List.flatten_cons, List.flatten_nil, List.append_assoc, List.append_nil] <;> rfl

theorem wheelOf_of_eq {q : SeatNo} {w : WheelNo} (h : q = seatOfWheel w) : wheelOf q = some w := by
  rw [h, wheelOf_seatOfWheel]

theorem seatReport_layout (s : State) (q : SeatNo) : SeatLayout s q (seatReport s q) := by
  rw [seatReport_eq]
  exact
    { length := rfl
      seat := (fieldAt_of_byte1 (k := 0) ⟨rfl, rfl⟩).trans (Nat.mod_eq_of_lt (by omega))
      service := showsItem_of_byte1 (k := 1) ⟨rfl, rfl⟩ (service_code s.seats[q].service)
      phase := fun w hw => showsItem_of_byte1 (k := 2) (n := s.wheels[w].phase.code)
        ⟨by simp only [seatFields, wheelOf_of_eq hw]; rfl, rfl⟩ (phase_code s.wheels[w].phase)
      group := fieldAt_of_orFF (k := 3) (x := s.seats[q].group) ⟨rfl, rfl⟩ (by decide)
      tool := ⟨fun r hr => shows_of_byte2 (k := 4) (n := r.number) ⟨by simp only [seatFields, hr]; rfl, rfl⟩,
        fun hr => shows_of_byte2 (k := 4) (n := 0) ⟨by simp only [seatFields, hr]; rfl, rfl⟩ (by decide)⟩
      flags := by
        have h := showsBits_of_standsAt (fields := seatFields s q) (rest := []) (k := 5) ⟨rfl, rfl⟩
        exact showsBits_trim (k := 6) h
      result := fun w hw => showsItem_of_byte1 (k := 6) (n := s.wheels[w].lastResult.code)
        ⟨by simp only [seatFields, wheelOf_of_eq hw]; rfl, rfl⟩ (probeResult_code s.wheels[w].lastResult)
      dresser := fun h =>
        ⟨fieldAt_of_byte1 (k := 2) (n := 0) ⟨by simp only [seatFields, wheelOf_dresser q h]; rfl, rfl⟩,
          fieldAt_of_byte1 (k := 6) (n := 0) ⟨by simp only [seatFields, wheelOf_dresser q h]; rfl, rfl⟩⟩ }

/-- Settles O12: the three layouts, the lengths of the other reports, and the data of a reply that is not DONE. -/
theorem toolGroupAndSeatReportsShowFields : Obligations.ToolGroupAndSeatReportsShowFields :=
  ⟨toolReport_layout, groupReport_layout, seatReport_layout, fun _ _ => rfl, noticesReport_length, fun _ => rfl,
    fun _ _ _ _ => reply_data_of_not_done⟩

end Sys2Proof.Proofs

/-! The commands that write one record (R20 to R31, R62): ENROL, EDIT, RETIRE and UNLINK, by their arguments and the state
of the record they name. O14 to O18 from these. -/

namespace Sys2Proof.Proofs

open Sys2Proof.Machine Sys2Proof.Safety Sys2Proof.Laws

/-! ### ENROL -/

/-- A record out of its seat is SPENT if a measure is ended, and else AVAILABLE. -/
theorem restState_eq (r : ToolRecord) :
    (if r.ended.isEmpty then RecState.available else .spent) = if HasEnd r then .spent else .available := by
  by_cases h : HasEnd r
  · rw [if_pos h, (ended_isEmpty_false_iff r).2 h]
    rfl
  · rw [if_neg h, if_pos ((ended_isEmpty_iff r).2 h)]

section Enrol

variable {tool : Half} {kind presence : Byte} {m : Measures} {s : State}

theorem kindArg_of {k : Kind} (h : kind = 1 ∧ k = .wheel ∨ kind = 2 ∧ k = .dresser) : kindArg kind = some k := by
  obtain ⟨rfl, rfl⟩ | ⟨rfl, rfl⟩ := h <;> rfl

theorem enrolCommand_of_new {k : Kind} (h0 : tool ≠ 0) (h1 : tool ≠ 0xFFFF)
    (hk : kind = 1 ∧ k = .wheel ∨ kind = 2 ∧ k = .dresser) (hf : s.find tool.toNat = none) (hl : s.table.length < 128) :
    enrolCommand tool kind presence m s = (s.addRecord (newRecord tool.toNat k presence m), done) := by
  simp only [enrolCommand, toolArg_ne h0 h1, kindArg_of hk, hf, Option.isSome_none, Bool.false_eq_true, if_false,
    if_neg (Nat.not_le.2 hl), reply_done]

theorem enrolCommand_bad_arg (h : tool = 0 ∨ tool = 0xFFFF ∨ kind ≠ 1 ∧ kind ≠ 2) :
    enrolCommand tool kind presence m s = (s, reply .badArg) := by
  rw [← or_assoc] at h
  obtain ht | ⟨h1, h2⟩ := h
  · simp only [enrolCommand, toolArg_bad ht]
  · have hk : kindArg kind = none := by rw [kindArg, if_neg h1, if_neg h2]
    cases ht : toolArg tool <;> simp only [enrolCommand, ht, hk]

/-- With its arguments in their ranges, ENROL checks first the tool number and then the length of the table. -/
theorem enrolCommand_of_args (h : ¬ (tool = 0 ∨ tool = 0xFFFF ∨ kind ≠ 1 ∧ kind ≠ 2)) :
    ∃ k, enrolCommand tool kind presence m s =
      if (s.find tool.toNat).isSome = true then (s, reply .duplicate)
      else if 128 ≤ s.table.length then (s, reply .tableFull)
      else (s.addRecord (newRecord tool.toNat k presence m), reply .done) := by
  obtain ⟨h0, h1, hk⟩ : tool ≠ 0 ∧ tool ≠ 0xFFFF ∧ (kind = 1 ∨ kind = 2) := by grind
  obtain ⟨k, hk⟩ : ∃ k, kindArg kind = some k := by
    obtain rfl | rfl := hk
    · exact ⟨_, rfl⟩
    · exact ⟨_, rfl⟩
  exact ⟨k, by simp only [enrolCommand, toolArg_ne h0 h1, hk]⟩

theorem enrolCommand_refuses {c : ReplyCode}
    (hc : FirstFailing [(tool = 0 ∨ tool = 0xFFFF ∨ (kind ≠ 1 ∧ kind ≠ 2), .badArg),
      ((s.find tool.toNat).isSome = true, .duplicate), (s.table.length ≥ 128, .tableFull)] c) :
    enrolCommand tool kind presence m s = (s, reply c) := by
  obtain ⟨ha, rfl⟩ | ⟨ha, hc⟩ := hc
  · exact enrolCommand_bad_arg ha
  obtain ⟨k, hk⟩ := enrolCommand_of_args (presence := presence) (m := m) (s := s) ha
  rw [hk]
  obtain ⟨hf, rfl⟩ | ⟨hf, ⟨hl, rfl⟩ | ⟨_, hnone⟩⟩ := hc
  · rw [if_pos hf]
  · rw [if_neg hf, if_pos hl]
  · exact hnone.elim

end Enrol

/-- Settles O14: the record inserted is the one ENROL carries, its state as its ended set has it. -/
theorem enrolInsertsTheRecord : Obligations.EnrolInsertsTheRecord := by
  intro tool kind presence m k s r r' h h0 h1 hk hf hl hr hr'
  refine completesAs_of h (exec_enrol s tool kind presence m) ((enrolCommand_of_new h0 h1 hk hf hl).trans ?_)
  rw [← restState_eq, hr', hr]
  rfl

/-! ### EDIT -/

theorem toolEnded_of_part_open {s : State} {q : SeatNo} (hq : s.seats[q].service = .running)
    (hp : s.stations[stationOf q].partOpen = true) : toolEnded s q = s.setService q .due := by
  simp only [toolEnded, hq, hp, if_true]

theorem toolEnded_of_no_part {s : State} {q : SeatNo} (hq : s.seats[q].service = .running)
    (hp : s.stations[stationOf q].partOpen = false) : toolEnded s q = beginChange s q := by
  simp only [toolEnded, hq, hp, Bool.false_eq_true, if_false]

theorem toolEnded_of_not_running {s : State} {q : SeatNo} (hq : s.seats[q].service ≠ .running) : toolEnded s q = s := by
  cases h : s.seats[q].service with
  | running => exact absurd h hq
  | unbound | waiting | changing | due | halted => simp only [toolEnded, h]

section Edit

variable {tool : Half} {apply presence : Byte} {m : Measures} {s : State} {r : ToolRecord}

theorem editCommand_bad_tool (h : tool = 0 ∨ tool = 0xFFFF) : editCommand tool apply presence m s = (s, reply .badArg) := by
  simp only [editCommand, toolArg_bad h]

theorem editCommand_unknown (ht : ¬ (tool = 0 ∨ tool = 0xFFFF)) (hf : s.find tool.toNat = none) :
    editCommand tool apply presence m s = (s, reply .unknownTool) := by
  obtain ⟨h0, h1⟩ := not_or.1 ht
  simp only [editCommand, toolArg_ne h0 h1, hf]

theorem editCommand_of_broken (h0 : tool ≠ 0) (h1 : tool ≠ 0xFFFF) (hf : s.find tool.toNat = some r)
    (hs : r.state = .broken) : editCommand tool apply presence m s = (s, reply .badState) := by
  simp only [editCommand, toolArg_ne h0 h1, hf, if_pos hs]

/-- An accepted EDIT writes the record and then acts by the record's state on a new end and on an un-ending. -/
theorem editCommand_of_found {r' : ToolRecord} (h0 : tool ≠ 0) (h1 : tool ≠ 0xFFFF) (hf : s.find tool.toNat = some r)
    (hs : r.state ≠ .broken) (hr' : r' = judged (s.marginOf r) (edited apply presence m r)) :
    editCommand tool apply presence m s =
      (editEffect (measureWrite s .command r (edited apply presence m r)).1 r (decide (NewEnd r r'))
        (decide (HasEnd r ∧ ¬ HasEnd r')), done) := by
  have hended : endedOf (edited apply presence m r) = r'.ended := by rw [hr', judged]
  have hgained : r'.ended.gains r.ended = decide (NewEnd r r') := by
    rw [Bool.eq_iff_iff, gains_iff, decide_eq_true_iff]
  have hunended : (!r.ended.isEmpty && r'.ended.isEmpty) = decide (HasEnd r ∧ ¬ HasEnd r') := by
    rw [Bool.eq_iff_iff, Bool.and_eq_true, decide_eq_true_iff, ended_isEmpty_iff, Bool.not_eq_true',
      ended_isEmpty_false_iff]
  simp only [editCommand, toolArg_ne h0 h1, hf, if_neg hs, edited_eq, hended, hgained, hunended, reply_done]

theorem edit_completes {r' t : State} {x : ToolRecord} (h : Ready s (.edit tool apply presence m)) (h0 : tool ≠ 0)
    (h1 : tool ≠ 0xFFFF) (hf : s.find tool.toNat = some r) (hs : r.state ≠ .broken)
    (hx : x = judged (s.marginOf r) (edited apply presence m r))
    (hr' : (measureWrite s .command r (edited apply presence m r)).1 = r')
    (ht : editEffect r' r (decide (NewEnd r x)) (decide (HasEnd r ∧ ¬ HasEnd x)) = t) :
    CompletesAs (.edit tool apply presence m) s t done := by
  rw [← ht, ← hr']
  exact completesAs_of h (exec_edit s tool apply presence m) (editCommand_of_found h0 h1 hf hs hx)

end Edit

/-- Settles O15. -/
theorem enrolAndEditChecks : Obligations.EnrolAndEditChecks := by
  refine ⟨fun tool kind presence m s c h hc =>
    answers_of h (exec_enrol s tool kind presence m) (enrolCommand_refuses hc), ?_⟩
  intro tool apply presence m s c h hc
  refine answers_of h (exec_edit s tool apply presence m) ?_
  obtain ⟨ht, rfl⟩ | ⟨ht, ⟨hf, rfl⟩ | ⟨_, ⟨⟨r, hf, hs⟩, rfl⟩ | ⟨_, hnone⟩⟩⟩ := hc
  · exact editCommand_bad_tool ht
  · exact editCommand_unknown ht hf
  · obtain ⟨h0, h1⟩ := not_or.1 ht
    exact editCommand_of_broken h0 h1 hf hs
  · exact hnone.elim

/-- Settles O16, by the state of the record. -/
theorem editOfUnmountedRecord : Obligations.EditOfUnmountedRecord := by
  intro tool apply presence m s r r' h h0 h1 hf hr'
  have hfind : s.find r'.number = some r := by
    rw [hr', ← hf, ← find_number hf]
    rfl
  have hnumber : r'.number = r.number := by rw [hr']; rfl
  have hstate : r'.state = r.state := by rw [hr']; rfl
  have hseat : r'.seat = r.seat := by rw [hr']; rfl
  have completes {t : State} (hm : r.state.mounted = false) (hb : r.state ≠ .broken)
      (ht : editEffect (s.putRecord r') r (decide (NewEnd r r')) (decide (HasEnd r ∧ ¬ HasEnd r')) = t) :
      CompletesAs (.edit tool apply presence m) s t done := by
    refine edit_completes h h0 h1 hf hb hr' ?_ ht
    rw [measureWrite_unmounted s .command r _ hm, recompute_command, hr']
  have hself (v : RecState) (hv : r.state = v) : { r' with state := v } = r' := by rw [← hv, ← hstate]
  refine ⟨fun hs => ?available, fun hs hn => ?chosen, fun q hs hn hq => ?chosenEnded, fun hs => ?held,
    fun hs he => ?spent, fun hs he hn => ?unended⟩
  case available =>
    refine completes (by rw [hs]; rfl) (by rw [hs]; decide) ?_
    by_cases hn : NewEnd r r'
    · simp only [editEffect, hs, hn, decide_true, if_true]
      rw [← hnumber, restate_putRecord s r' r _ hfind]
    · simp only [editEffect, hs, hn, decide_false, Bool.false_eq_true, if_false, hself _ hs]
  case chosen =>
    refine completes (by rw [hs]; rfl) (by rw [hs]; decide) ?_
    simp only [editEffect, hs, hn, decide_false, Bool.false_eq_true, if_false]
  case chosenEnded =>
    refine completes (by rw [hs]; rfl) (by rw [hs]; decide) ?_
    simp only [editEffect, hs, hn, decide_true, if_true]
    rw [← hnumber, reselect_putRecord s r' r _ q hfind (hseat.trans hq)]
  case held =>
    refine completes (by rw [hs]; rfl) (by rw [hs]; decide) ?_
    simp only [editEffect, hs]
  case spent =>
    refine completes (by rw [hs]; rfl) (by rw [hs]; decide) ?_
    have hnot : ¬ (HasEnd r ∧ ¬ HasEnd r') := fun ⟨h1, h2⟩ => he.elim h2 (fun h => h h1)
    simp only [editEffect, hs, decide_eq_false hnot, Bool.false_eq_true, if_false]
  case unended =>
    refine completes (by rw [hs]; rfl) (by rw [hs]; decide) ?_
    simp only [editEffect, hs, decide_eq_true (show HasEnd r ∧ ¬ HasEnd r' from ⟨he, hn⟩), if_true]
    rw [← hnumber, restate_putRecord s r' r _ hfind]

/-- Settles O17, by the state of the record and, where it is ACTIVE, by the seat. -/
theorem editOfMountedRecord : Obligations.EditOfMountedRecord := by
  intro tool apply presence m s u r r' q h h0 h1 hf hq hm hr' hu
  have completes {t : State}
      (ht : editEffect u r (decide (NewEnd r r')) (decide (HasEnd r ∧ ¬ HasEnd r')) = t) :
      CompletesAs (.edit tool apply presence m) s t done := by
    refine edit_completes h h0 h1 hf (by obtain hs | hs := hm <;> rw [hs] <;> decide) hr' ?_ ht
    rw [measureWrite_mounted s .command r _ q hq hm, recompute_command, hu, hr']
  have hseats : u.seats = s.seats := by rw [hu, raiseIf_seats, raiseIf_seats, putRecord_seats]
  have hstations : u.stations = s.stations := by rw [hu, raiseIf_stations, raiseIf_stations, putRecord_stations]
  have hended (hs : r.state = .active) (hn : NewEnd r r') :
      editEffect u r (decide (NewEnd r r')) (decide (HasEnd r ∧ ¬ HasEnd r')) = toolEnded u q := by
    simp only [editEffect, hs, hq, hn, decide_true, if_true]
  have hkept (hs : r.state = .active) (hn : ¬ NewEnd r r') :
      editEffect u r (decide (NewEnd r r')) (decide (HasEnd r ∧ ¬ HasEnd r')) =
        if HasEnd r ∧ ¬ HasEnd r' ∧ s.seats[q].service = .due then u.setService q .running else u := by
    simp only [editEffect, hs, hq, hn, decide_false, Bool.false_eq_true, if_false, hseats, Bool.and_eq_true,
      decide_eq_true_eq, beq_iff_eq, and_assoc]
  refine ⟨fun hs => completes ?suspect, fun hs hn hrun hp => completes ?partOpen, fun hs hn hrun hp => completes ?noPart,
    fun hs hn hdue => completes ?due, fun hs he hn hdue => completes ?unended, fun hs hn he => completes ?other⟩
  case suspect => simp only [editEffect, hs]
  case partOpen => rw [hended hs hn, toolEnded_of_part_open (by rw [hseats, hrun]) (by rw [hstations, hp])]
  case noPart => rw [hended hs hn, toolEnded_of_no_part (by rw [hseats, hrun]) (by rw [hstations, hp])]
  case due => rw [hended hs hn, toolEnded_of_not_running (by rw [hseats, hdue]; decide)]
  case unended =>
    have hnew : ¬ NewEnd r r' := fun hnew => hn (by grind)
    rw [hkept hs hnew, if_pos ⟨he, hn, hdue⟩]
  case other =>
    rw [hkept hs hn, if_neg]
    rintro ⟨h1, h2, h3⟩
    obtain he | he | he := he
    · exact h2 he
    · exact he h1
    · rw [he] at h3
      cases h3

/-! ### RETIRE and UNLINK -/

theorem atSeat_of_seated {v : RecState} (h : v = .chosen ∨ v = .active ∨ v = .suspect) : v.atSeat = true := by
  obtain rfl | rfl | rfl := h <;> rfl

theorem atSeat_of_unseated {v : RecState} (h : v = .available ∨ v = .held ∨ v = .spent ∨ v = .broken) :
    v.atSeat = false := by
  obtain rfl | rfl | rfl | rfl := h <;> rfl

theorem leaveGroup_of_loose {s : State} {r : ToolRecord} (h : r.group = none) : leaveGroup s r = s := by
  simp only [leaveGroup, h]

theorem leaveGroup_of_member {s : State} {r : ToolRecord} {g : GroupNo} {grp : Group} (hg : r.group = some g)
    (hs : s.groups[g] = some grp) : leaveGroup s r = s.setGroup g (some (without grp r.number)) := by
  simp only [leaveGroup, hg, hs, erase_without]

section RetireUnlink

variable {tool : Half} {s : State} {r : ToolRecord} (h0 : tool ≠ 0) (h1 : tool ≠ 0xFFFF)
  (hf : s.find tool.toNat = some r)

include h0 h1 hf

theorem retireCommand_of_found : retireCommand tool s =
    if r.state.atSeat then (s, reply .inUse) else ((leaveGroup s r).removeRecord tool.toNat, done) := by
  simp only [retireCommand, toolArg_ne h0 h1, hf, reply_done]

theorem unlinkCommand_of_found : unlinkCommand tool s =
    if r.group.isNone then (s, reply .noGroup) else if r.state.atSeat then (s, reply .inUse)
    else ((leaveGroup s r).putRecord { r with group := none, wearCarry := 0, warned := false }, done) := by
  simp only [unlinkCommand, toolArg_ne h0 h1, hf, reply_done]

end RetireUnlink

/-- Settles O18. -/
theorem retireAndUnlinkRemoveTheTool : Obligations.RetireAndUnlinkRemoveTheTool := by
  constructor
  · intro tool s r h h0 h1 hf
    have hcmd := retireCommand_of_found h0 h1 hf
    refine ⟨fun hs => answers_of h (exec_retire s tool) (hcmd.trans (if_pos (atSeat_of_seated hs))), fun hs => ?_⟩
    rw [if_neg (by rw [atSeat_of_unseated hs]; decide)] at hcmd
    refine ⟨fun hg => ?_, fun g grp hg hgrp => ?_⟩
    · rw [leaveGroup_of_loose hg] at hcmd
      exact completesAs_of h (exec_retire s tool) hcmd
    · rw [leaveGroup_of_member hg hgrp, find_number hf] at hcmd
      exact completesAs_of h (exec_retire s tool) hcmd
  · intro tool s r h h0 h1 hf
    have hcmd := unlinkCommand_of_found h0 h1 hf
    refine ⟨fun hg => ?_, fun g hg hs => ?_, fun g grp hg hgrp hs => ?_⟩
    · exact answers_of h (exec_unlink s tool) (hcmd.trans (if_pos (by rw [hg]; rfl)))
    · rw [if_neg (by rw [hg]; exact Bool.false_ne_true)] at hcmd
      exact answers_of h (exec_unlink s tool) (hcmd.trans (if_pos (atSeat_of_seated hs)))
    · rw [if_neg (by rw [hg]; exact Bool.false_ne_true), if_neg (by rw [atSeat_of_unseated hs]; decide),
        leaveGroup_of_member hg hgrp] at hcmd
      rw [← find_number hf]
      exact completesAs_of h (exec_unlink s tool) hcmd

end Sys2Proof.Proofs

/-! The commands that write a group (R55 to R61): DEFINE by the kind it finds and the kind it carries, the redefinition of a
group in use, and LINK. O23, O24 and O26 from these. -/

namespace Sys2Proof.Proofs

open Sys2Proof.Machine Sys2Proof.Safety Sys2Proof.Laws

/-! ### DEFINE -/

section Define

variable {a : DefineArgs} {s : State} {g : GroupNo} {pol : Policy}

theorem defineCommand_of_args {kind : Option Kind} (hg : a.group.toNat = g.val)
    (hpol : a.policy = 0 ∧ pol = .priority ∨ a.policy = 1 ∧ pol = .rotate) (hk : groupKindArg a.kind = some kind)
    (h : kind = s.groups[g].map (·.kind) ∨ ¬ InUse s g) :
    defineCommand a s = (defineGroup s g kind (clamped a pol), done) := by
  have hfree : ¬ (kind ≠ s.groups[g].map (·.kind) ∧ s.groupInUse g = true) := by
    rw [inUse_iff]
    exact fun ⟨hne, hu⟩ => h.elim hne (fun hn => hn hu)
  simp only [defineCommand, groupArg_of_toNat hg, hk, policyArg_of hpol, if_neg hfree, clamped_eq, reply_done]

theorem defineGroup_undefines {p : Params} {grp : Group} (h : s.groups[g] = some grp) :
    defineGroup s g none p = s.setGroup g none := by
  simp only [defineGroup, h]

theorem defineGroup_of_undefined {p : Params} (h : s.groups[g] = none) : defineGroup s g none p = s := by
  simp only [defineGroup, h]

theorem defineGroup_of_other_kind {p : Params} {k : Kind} (h : ∀ grp, s.groups[g] = some grp → grp.kind ≠ k) :
    defineGroup s g (some k) p = s.setGroup g (some (newGroup k p)) := by
  cases hg : s.groups[g] with
  | none => simp only [defineGroup, hg]
  | some grp => simp only [defineGroup, hg, if_neg (h grp hg)]

theorem defineGroup_of_same_kind {p : Params} {grp : Group} (h : s.groups[g] = some grp) :
    defineGroup s g (some grp.kind) p = redefine s g grp p := by
  simp only [defineGroup, h, if_true]

end Define

/-- Settles O23, by the kind DEFINE carries and the group it finds. -/
theorem defineMakesTheGroup : Obligations.DefineMakesTheGroup := by
  intro a s g pol h hg hpol
  refine ⟨fun hk hnone => ?_, fun grp hk hgrp hu => ?_, fun k hk hgrp hu => ?_, fun hk hne hu => ?_⟩
  · have hcmd := defineCommand_of_args (s := s) (kind := none) hg hpol (by rw [hk]; rfl) (.inl (by rw [hnone]; rfl))
    rw [defineGroup_of_undefined hnone] at hcmd
    exact completesAs_of h (exec_define s a) hcmd
  · have hcmd := defineCommand_of_args (s := s) (kind := none) hg hpol (by rw [hk]; rfl) (.inr hu)
    rw [defineGroup_undefines hgrp] at hcmd
    exact completesAs_of h (exec_define s a) hcmd
  · have hcmd := defineCommand_of_args (s := s) hg hpol (groupKindArg_of hk) (.inr hu)
    rw [defineGroup_of_other_kind hgrp] at hcmd
    exact completesAs_of h (exec_define s a) hcmd
  · have hp : ¬ a.policy.toNat > 1 := by
      obtain ⟨hp, _⟩ | ⟨hp, _⟩ := hpol <;> rw [hp] <;> decide
    exact answers_of h (exec_define s a) (defineCommand_in_use (Nat.not_lt.2 hk) hp hg hne hu)

/-! ### The redefinition of a group (R58), step by step -/

section Redefine

variable (s : State) (g : GroupNo) (grp : Group) (p : Params)

/-- The record of a member after the nominal load is rewritten. -/
def carryClamped (r : ToolRecord) : ToolRecord :=
  if r.group = some g then
    { r with wearCarry := if p.nominalLoad = grp.params.nominalLoad then r.wearCarry
        else min r.wearCarry (p.nominalLoad - 1) }
  else r

/-- The record of a member after the warn margin is rewritten. -/
def rewarned (r : ToolRecord) : ToolRecord :=
  if r.group = some g then
    { r with warned := if p.warnMargin = grp.params.warnMargin then r.warned
        else computedWarning r (some p.warnMargin) }
  else r

/-- The record is one whose flag goes from no to yes at the seat when the warn margin is rewritten. -/
def NewlyWarned (q : SeatNo) (r : ToolRecord) : Prop :=
  r.group = some g ∧ r.seat = some q ∧ (r.state = .active ∨ r.state = .suspect) ∧ r.warned = false
    ∧ computedWarning r (some p.warnMargin) = true

/-- The nominal load rewritten. -/
def clampCarriesIfNew : State :=
  if p.nominalLoad = grp.params.nominalLoad then s else clampCarries s g p.nominalLoad

/-- The warn margin rewritten. -/
def rewarnIfNew : State :=
  if p.warnMargin = grp.params.warnMargin then s else rewarnMembers s g p.warnMargin

theorem redefine_steps : redefine s g grp p =
    stopDisabled (rewarnIfNew (clampCarriesIfNew (s.setGroup g (some { grp with
      params := p, cursor := if p.policy = grp.params.policy then grp.cursor else none })) g grp p) g grp p) g p := rfl

theorem clampCarriesIfNew_eq :
    clampCarriesIfNew s g grp p = { s with table := s.table.map (carryClamped g grp p) } := by
  unfold clampCarriesIfNew
  split
  · next h =>
    have hid : carryClamped g grp p = id := funext fun r => by
      rw [carryClamped, if_pos h]
      split <;> rfl
    rw [hid, List.map_id]
  · next h =>
    have hnew : carryClamped g grp p = fun r =>
        if r.group = some g then { r with wearCarry := min r.wearCarry (p.nominalLoad - 1) } else r :=
      funext fun r => by simp only [carryClamped, if_neg h]
    rw [hnew, clampCarries]

theorem rewarnIfNew_spec (t : State) (ht : rewarnIfNew s g grp p = t) :
    t.table = s.table.map (rewarned g grp p) ∧ t = { s with table := t.table, notices := t.notices }
      ∧ ∀ q : SeatNo, (t.notices.seats[q].warn = true ↔ s.notices.seats[q].warn = true
          ∨ (p.warnMargin ≠ grp.params.warnMargin ∧ ∃ r ∈ s.table, NewlyWarned g p q r))
          ∧ t.notices.seats[q] = { s.notices.seats[q] with warn := t.notices.seats[q].warn } := by
  unfold rewarnIfNew at ht
  split at ht
  · next h =>
    subst ht
    have hid : rewarned g grp p = id := funext fun r => by
      rw [rewarned, if_pos h]
      split <;> rfl
    refine ⟨by rw [hid, List.map_id], rfl, fun q => ⟨?_, rfl⟩⟩
    rw [or_iff_left fun hc => hc.1 h]
  · next h =>
    obtain ⟨htable, heq, _, _, hwarn⟩ := rewarn_spec s t g p.warnMargin ht
    refine ⟨?_, heq, fun q => ?_⟩
    · have hnew : rewarned g grp p = fun r =>
          if r.group = some g then { r with warned := computedWarning r (some p.warnMargin) } else r :=
        funext fun r => by simp only [rewarned, if_neg h]
      rw [htable, hnew]
    · obtain ⟨hq, hother⟩ := hwarn q
      refine ⟨?_, hother⟩
      exact hq.trans (or_congr_right (and_iff_right h).symm)

theorem carryClamped_number (r : ToolRecord) : (carryClamped g grp p r).number = r.number := by
  unfold carryClamped; split <;> rfl

theorem rewarned_number (r : ToolRecord) : (rewarned g grp p r).number = r.number := by
  unfold rewarned; split <;> rfl

/-- The clamping of the carry bears on nothing that decides the warnings. -/
theorem newlyWarned_carryClamped (q : SeatNo) (r : ToolRecord) :
    NewlyWarned g p q (carryClamped g grp p r) ↔ NewlyWarned g p q r := by
  unfold carryClamped
  split <;> rfl

theorem rewarned_carryClamped (r : ToolRecord) : rewarned g grp p (carryClamped g grp p r) =
    if r.group = some g then
      { r with
        wearCarry := if p.nominalLoad = grp.params.nominalLoad then r.wearCarry else min r.wearCarry (p.nominalLoad - 1)
        warned := if p.warnMargin = grp.params.warnMargin then r.warned
          else computedWarning r (some p.warnMargin) }
    else r := by
  unfold carryClamped
  split
  · next h =>
    rw [rewarned, if_pos h]
    rfl
  · next h => rw [rewarned, if_neg h]

/-- What a redefinition leaves of the tables: the group rewritten, each member's record, the warnings raised, and the
timers stopped. -/
structure Redefined (t : State) : Prop where
  groups  : t.groups = s.groups.set g (some { grp with
    params := p, cursor := if p.policy = grp.params.policy then grp.cursor else none })
  seats   : t.seats = s.seats
  records : t.table = s.table.map fun r => rewarned g grp p (carryClamped g grp p r)
  notices : ∀ q : SeatNo, (t.notices.seats[q].warn = true ↔ s.notices.seats[q].warn = true
      ∨ (p.warnMargin ≠ grp.params.warnMargin ∧ ∃ r ∈ s.table, NewlyWarned g p q r))
    ∧ t.notices.seats[q] = { s.notices.seats[q] with warn := t.notices.seats[q].warn }
  wheels  : ∀ w : WheelNo, t.wheels[w] = if s.seats[seatOfWheel w].group = some g then
      { s.wheels[w] with
        loss := if p.lossFloor = 0 then none else s.wheels[w].loss
        overload := if p.overloadCeiling = 0 then none else s.wheels[w].overload
        contact := if p.contactLevel = 0 then none else s.wheels[w].contact }
    else s.wheels[w]

theorem stopDisabled_wheel (w : WheelNo) : (stopDisabled s g p).wheels[w] =
    if s.seats[seatOfWheel w].group = some g then
      { s.wheels[w] with
        loss := if p.lossFloor = 0 then none else s.wheels[w].loss
        overload := if p.overloadCeiling = 0 then none else s.wheels[w].overload
        contact := if p.contactLevel = 0 then none else s.wheels[w].contact }
    else s.wheels[w] := by
  simp only [stopDisabled, Fin.getElem_fin, Vector.getElem_ofFn]

theorem redefine_redefined : Redefined s g grp p (redefine s g grp p) := by
  rw [redefine_steps, clampCarriesIfNew_eq]
  obtain ⟨htable, heq, hwarn⟩ := rewarnIfNew_spec _ g grp p _ rfl
  generalize rewarnIfNew _ g grp p = u at htable heq hwarn
  have hseats : u.seats = s.seats := by rw [heq]; rfl
  have hwheels : u.wheels = s.wheels := by rw [heq]; rfl
  refine ⟨?_, hseats, ?_, fun q => ?_, fun w => ?_⟩
  · change u.groups = _
    rw [heq]
    rfl
  · change u.table = _
    rw [htable, List.map_map]
    rfl
  · obtain ⟨hq, hother⟩ := hwarn q
    refine ⟨hq.trans (or_congr_right (and_congr_right fun _ => ?_)), hother⟩
    constructor
    · rintro ⟨x, hx, hnew⟩
      obtain ⟨r, hr, rfl⟩ := List.mem_map.1 hx
      exact ⟨r, hr, (newlyWarned_carryClamped g grp p q r).1 hnew⟩
    · rintro ⟨r, hr, hnew⟩
      exact ⟨_, List.mem_map_of_mem hr, (newlyWarned_carryClamped g grp p q r).2 hnew⟩
  · rw [stopDisabled_wheel, hseats, hwheels]

end Redefine

theorem answer_background {s t : State} (h : KeepsRest s t) (r : Reply) : Background s (answer s t r) where
  cutLines := h.cutLines
  pendLines := h.pendLines
  scan := h.scan
  link := by
    change withReply t.link r = _
    rw [h.link]
    rfl
  device := h.device
  stretch := h.stretch
  partOpen st := by
    rw [answer, commit_partOpen, setLink_stations, h.stations]
  nRST := h.nRST
  sdo := by
    change t.pins.sdo = s.pins.sdo
    rw [h.pins]
  freeCount := h.freeCount
  pending := h.pending

/-- Settles O24: the redefinition step by step, and the end of the step that completes it. -/
theorem redefineRewritesTheGroup : Obligations.RedefineRewritesTheGroup := by
  intro a s g grp pol h hg hpol hgrp hk
  have hcmd : defineCommand a s = (redefine s g grp (clamped a pol), done) := by
    have hkind : groupKindArg a.kind = some (some grp.kind) := groupKindArg_of hk
    rw [← defineGroup_of_same_kind hgrp]
    exact defineCommand_of_args hg hpol hkind (.inl (by rw [hgrp]; rfl))
  have hr := redefine_redefined s g grp (clamped a pol)
  have hrest := redefine_keepsRest s g grp (clamped a pol)
  refine ⟨answer s (redefine s g grp (clamped a pol)) done, completesAs_of h (exec_define s a) hcmd,
    stored_answer _ _ _, answer_background hrest done, hr.seats, fun x hx => ?_, ?_, fun n => ?_, hr.notices,
    fun w hw => ?_, fun w hw => ?_⟩
  · change (redefine s g grp (clamped a pol)).groups[x] = _
    rw [hr.groups, set_get_ne _ _ hx]
  · change (redefine s g grp (clamped a pol)).groups[g] = _
    rw [hr.groups, set_get_self]
    rfl
  · change (redefine s g grp (clamped a pol)).find n = _
    rw [find_map_table s _ _ (fun r => by rw [rewarned_number, carryClamped_number]) hr.records]
    simp only [rewarned_carryClamped]
  · exact (hr.wheels w).trans (if_neg hw)
  · exact (hr.wheels w).trans (if_pos hw)

/-! ### LINK -/

theorem insertMember_eq (grp : Group) (p n : Nat) : grp.insertMember p n =
    { grp with
      members := grp.members.take p ++ n :: grp.members.drop p
      cursor := match grp.cursor with
        | some c => some (if p ≤ c then c + 1 else c)
        | none => none } := by
  cases h : grp.cursor <;> simp only [Group.insertMember, h, Option.map_some, Option.map_none]

/-- Settles O26. -/
theorem linkInsertsTheMember : Obligations.LinkInsertsTheMember := by
  intro group tool index s g grp r r' p h hg h0 h1 hgrp hf hloose hk hl hb hp hr'
  have hcmd := linkCommand_of_found (index := index) hg h0 h1 hgrp hf
  rw [if_neg (not_not.2 hloose), if_neg (not_not.2 hk), if_neg (Nat.not_le.2 hl), if_neg hb] at hcmd
  refine completesAs_of h (exec_link s group tool index) (hcmd.trans ?_)
  have hindex : min index.toNat grp.members.length = p := by
    rw [hp]
    split <;> omega
  rw [linkRecord, hindex, insertMember_eq, ← find_number hf, hr', reply_done]
  rfl

end Sys2Proof.Proofs

/-! The commands of a seat that holds a tool: leaving service (R89), MOUNT of the chosen record (R108), RELEASE and CONDEMN
(R142, R144), CHECK (R146 to R148) and DRESS (R42 to R44). O33, O34 and O48 to O50 from these. -/

namespace Sys2Proof.Proofs

open Sys2Proof.Machine Sys2Proof.Safety Sys2Proof.Laws

/-! ### Leaving service -/

section LeaveService

variable (s : State)

theorem leaveService_of_dresser {q : SeatNo} (h : q.val % 4 ≥ 2) : leaveService s q = s := by
  simp only [leaveService, wheelOf_dresser q h]

theorem leaveService_of_no_cut {w : WheelNo} (h : ¬ CutOpen s w) : leaveService s (seatOfWheel w) =
    (raiseIf s (s.wheels[w].check ≠ none) (seatOfWheel w) .check).setWheel w (rested s.wheels[w]) := by
  simp only [leaveService, wheelOf_seatOfWheel, if_neg ((cutOpen_iff s w).not.2 h), abort_stop]

theorem leaveService_of_cut {w : WheelNo} (h : CutOpen s w) : leaveService s (seatOfWheel w) =
    (raiseIf (closeCut s w).1 ((closeCut s w).1.wheels[w].check ≠ none) (seatOfWheel w) .check).setWheel w
      (rested (closeCut s w).1.wheels[w]) := by
  simp only [leaveService, wheelOf_seatOfWheel, if_pos ((cutOpen_iff s w).2 h), abort_stop]

theorem leaveService_of_charged {w : WheelNo} {r r' : ToolRecord} {g : GroupNo} {grp : Group} (h : CutOpen s w)
    (hh : s.holder (seatOfWheel w) = some r) (hs : r.state = .active ∨ r.state = .suspect)
    (hg : s.seats[seatOfWheel w].group = some g) (hgs : s.groups[g] = some grp)
    (hr' : r' = chargedTo (s.marginOf r) (worn s.wheels[w].accumulator grp.params.nominalLoad r)) :
    leaveService s (seatOfWheel w) =
      ((raiseIf (raiseIf (raiseIf s (NewEnd r r' ∧ r.state = .active) (seatOfWheel w) .spent)
          (r.warned = false ∧ r'.warned = true) (seatOfWheel w) .warn)
          (s.wheels[w].check ≠ none) (seatOfWheel w) .check).putRecord r').setWheel w
        { rested s.wheels[w] with accumulator := 0, cutTimer := none } := by
  rw [leaveService_of_cut s h, closeCut_eq s w r r' g grp hh hs hg hgs hr', setWheel_get, raiseIf_setWheel,
    setWheel_setWheel, raiseIf_putRecord, raiseIf_putRecord, raiseIf_putRecord]
  rfl

theorem takeOff_of {q : SeatNo} {r : ToolRecord} {expected next : RecState} (hh : s.holder q = some r)
    (hs : r.state = expected) : takeOff s q expected next = s.putRecord { r with state := next, seat := none } := by
  simp only [takeOff, hh, if_pos hs]

end LeaveService

/-- Settles O33. -/
theorem leavingServiceAndChanging : Obligations.LeavingServiceAndChanging :=
  ⟨fun s _ h => leaveService_of_dresser s h, fun s _ h => leaveService_of_no_cut s h,
    fun s _ _ _ _ _ h hh hs hg hgs hr' => leaveService_of_charged s h hh hs hg hgs hr',
    fun s q r hh hs => by rw [beginChange, takeOff_of _ hh hs]⟩

/-! ### MOUNT of the chosen record -/

theorem enterService_of_dresser (s : State) {q : SeatNo} (h : q.val % 4 ≥ 2) :
    enterService s q = s.setService q .running := by
  simp only [enterService, wheelOf_dresser q h]

theorem enterService_of_wheel (s : State) (w : WheelNo) : enterService s (seatOfWheel w) =
    (s.setService (seatOfWheel w) .running).setWheel w (fresh s.wheels[w]) := by
  simp only [enterService, wheelOf_seatOfWheel, fresh, setService_wheels]

theorem mountChosen_eq (s : State) (q : SeatNo) (r : ToolRecord) : mountChosen s q r =
    raiseIf (enterService (s.putRecord { r with state := .active }) q) (r.warned = true) q .warn := rfl

theorem mountCommand_of_chosen {seat : Byte} {tool : Half} {s : State} {q : SeatNo} {r : ToolRecord}
    (hq : seat.toNat = q.val) (h0 : tool ≠ 0) (h1 : tool ≠ 0xFFFF) (hs : s.seats[q].service = .changing)
    (hf : s.find tool.toNat = some r) (hr : r.state = .chosen) (hseat : r.seat = some q) :
    mountCommand seat tool s = (mountChosen s q r, done) := by
  simp only [mountCommand, seatArg_of_toNat hq, toolArg_ne h0 h1, hs, hf, hr, hseat, ne_eq, not_true_eq_false, if_false,
    and_self, if_true, reply_done]

/-- Settles O34. -/
theorem mountPutsTheToolInService : Obligations.MountPutsTheToolInService := by
  intro seat tool s q r h hq h0 h1 hs hf hr hseat
  have hcmd := mountCommand_of_chosen hq h0 h1 hs hf hr hseat
  rw [mountChosen_eq] at hcmd
  refine ⟨fun hd => ?_, fun w hw => ?_⟩
  · rw [enterService_of_dresser _ hd] at hcmd
    exact completesAs_of h (exec_mount s seat tool) hcmd
  · subst hw
    rw [enterService_of_wheel] at hcmd
    exact completesAs_of h (exec_mount s seat tool) hcmd

/-! ### RELEASE and CONDEMN -/

section Breakage

variable {seat : Byte} {s : State} {q : SeatNo} {r : ToolRecord}

theorem releaseCommand_of_halted (hq : seat.toNat = q.val) (hs : s.seats[q].service = .halted) :
    releaseCommand seat s = (releaseSeat s q, done) := by
  simp only [releaseCommand, seatArg_of_toNat hq, if_pos hs, reply_done]

theorem condemnCommand_of_halted (hq : seat.toNat = q.val) (hs : s.seats[q].service = .halted) :
    condemnCommand seat s = (condemnSeat s q, done) := by
  simp only [condemnCommand, seatArg_of_toNat hq, if_pos hs, reply_done]

theorem releaseSeat_of_suspect {w : WheelNo} (hw : q = seatOfWheel w) (hh : s.holder q = some r)
    (hr : r.state = .suspect) : releaseSeat s q =
    let u := s.putRecord { r with state := .active, cause := none }
    if HasEnd r ∧ s.stations[stationOf q].partOpen = false then beginChange u q
    else stopFilters (u.setService q (if HasEnd r then .due else .running)) w := by
  have hwheel : wheelOf q = some w := by rw [hw, wheelOf_seatOfWheel]
  have hempty : r.ended.isEmpty = !decide (HasEnd r) := by
    rw [Bool.eq_iff_iff, ended_isEmpty_iff, Bool.not_eq_true', decide_eq_false_iff_not]
  by_cases he : HasEnd r
  · cases hp : s.stations[stationOf q].partOpen <;>
      simp only [releaseSeat, hh, hr, if_true, hempty, he, decide_true, Bool.not_true, Bool.not_false, putRecord_stations,
        hp, Bool.and_true, Bool.and_false, and_true, if_false, Bool.false_eq_true, Bool.true_eq_false, and_false, hwheel]
  · simp only [releaseSeat, hh, hr, if_true, hempty, he, decide_false, Bool.not_true, Bool.not_false, Bool.false_and,
      false_and, if_false, Bool.false_eq_true, hwheel]

theorem stopFilters_setService (u : State) (w : WheelNo) (v : Service) : stopFilters (u.setService q v) w =
    (u.setService q v).setWheel w { u.wheels[w] with loss := none, overload := none, contact := none } := rfl

end Breakage

/-- Settles O48. -/
theorem releaseAndCondemn : Obligations.ReleaseAndCondemn := by
  constructor
  · intro seat s u q w r h hq hw hs hh hr hu
    have hcmd := releaseCommand_of_halted hq hs
    rw [releaseSeat_of_suspect hw hh hr] at hcmd
    simp only [← hu, stopFilters_setService] at hcmd
    have hwheels : u.wheels = s.wheels := by rw [hu, putRecord_wheels]
    refine ⟨fun he => ?_, fun he hp => ?_, fun he hp => ?_⟩
    · rw [if_neg (fun hc => he hc.1), if_neg he, hwheels] at hcmd
      exact completesAs_of h (exec_release s seat) hcmd
    · rw [if_neg (by rw [hp]; exact fun hc => Bool.noConfusion hc.2), if_pos he, hwheels] at hcmd
      exact completesAs_of h (exec_release s seat) hcmd
    · rw [if_pos ⟨he, hp⟩] at hcmd
      exact completesAs_of h (exec_release s seat) hcmd
  · intro seat s q r h hq hs hh hr
    have hcmd := condemnCommand_of_halted hq hs
    rw [condemnSeat, takeOff_of _ hh hr] at hcmd
    exact completesAs_of h (exec_condemn s seat) hcmd

/-! ### CHECK -/

theorem seat_cases (q : SeatNo) : (∃ w, q = seatOfWheel w) ∨ q.val % 4 ≥ 2 := by revert q; decide

theorem seatOfWheel_lt (w : WheelNo) : (seatOfWheel w).val % 4 < 2 := by revert w; decide

section Check

variable {seat : Byte} {lo hi : Half} {duration : Byte} {s : State} {w : WheelNo}

theorem checkCommand_of_wheel (hq : seat.toNat = (seatOfWheel w).val) : checkCommand seat lo hi duration s =
    if min lo.toNat 1023 > min hi.toNat 1023 then (s, reply .badArg)
    else if ¬ InService s (seatOfWheel w) ∨ s.wheels[w].phase ≠ .idle ∨ s.scan.fault = true then (s, reply .badState)
    else if s.wheels[w].check ≠ none then (s, reply .checkBusy)
    else (startCheck s w (min lo.toNat 1023) (min hi.toNat 1023) (durationArg duration), reply .done) := by
  have hlimit (x : Half) : probeLimitArg x = min x.toNat 1023 := by
    unfold probeLimitArg
    omega
  have hbad : (!s.seats[seatOfWheel w].service.inService || s.wheels[w].phase != .idle || s.scan.fault) = true ↔
      ¬ InService s (seatOfWheel w) ∨ s.wheels[w].phase ≠ .idle ∨ s.scan.fault = true := by
    rw [Bool.or_eq_true, Bool.or_eq_true, Bool.not_eq_true', bne_iff_ne, or_assoc, ← Bool.not_eq_true, inService_iff]
  have hbusy : s.wheels[w].check.isSome = true ↔ s.wheels[w].check ≠ none := Option.isSome_iff_ne_none
  simp only [checkCommand, seatArg_of_toNat hq, wheelOf_seatOfWheel, hlimit, hbad, hbusy, gt_iff_lt]

theorem checkCommand_of_dresser {q : SeatNo} (hq : seat.toNat = q.val) (h : q.val % 4 ≥ 2) :
    checkCommand seat lo hi duration s = (s, reply .badArg) := by
  simp only [checkCommand, seatArg_of_toNat hq, wheelOf_dresser q h]

theorem checkCommand_bad_seat (h : seat.toNat > 15) : checkCommand seat lo hi duration s = (s, reply .badArg) := by
  simp only [checkCommand, seatArg_gt h]

/-- The seat argument names a wheel seat. -/
theorem wheel_of_seatArg (h : ¬ seat.toNat > 15) (hw : ¬ seat.toNat % 4 ≥ 2) :
    ∃ w : WheelNo, seat.toNat = (seatOfWheel w).val := by
  obtain ⟨q, hq⟩ := seatArg_le h
  obtain ⟨w, rfl⟩ | hd := seat_cases q
  · exact ⟨w, hq⟩
  · exact absurd (hq ▸ hd) hw

theorem seatOfWheel_of_toNat {v : WheelNo} (hv : seat.toNat = (seatOfWheel v).val) (hw : seat.toNat = (seatOfWheel w).val) :
    v = w :=
  seatOfWheel_injective (Fin.ext (hv.symm.trans hw))

theorem checkCommand_refuses {c : ReplyCode}
    (hc : FirstFailing [(seat.toNat > 15, .badArg), (seat.toNat % 4 ≥ 2, .badArg),
      (min lo.toNat 1023 > min hi.toNat 1023, .badArg),
      (∃ w : WheelNo, seat.toNat = (seatOfWheel w).val
        ∧ (¬ InService s (seatOfWheel w) ∨ s.wheels[w].phase ≠ .idle ∨ s.scan.fault = true), .badState),
      (∃ w : WheelNo, seat.toNat = (seatOfWheel w).val ∧ s.wheels[w].check ≠ none, .checkBusy)] c) :
    checkCommand seat lo hi duration s = (s, reply c) := by
  obtain ⟨hb, rfl⟩ | ⟨hb, hc⟩ := hc
  · exact checkCommand_bad_seat hb
  obtain ⟨hd, rfl⟩ | ⟨hd, hc⟩ := hc
  · obtain ⟨q, hq⟩ := seatArg_le hb
    exact checkCommand_of_dresser hq (hq ▸ hd)
  obtain ⟨w, hw⟩ := wheel_of_seatArg hb hd
  rw [checkCommand_of_wheel hw]
  obtain ⟨hl, rfl⟩ | ⟨hl, hc⟩ := hc
  · rw [if_pos hl]
  rw [if_neg hl]
  obtain ⟨⟨v, hv, hs⟩, rfl⟩ | ⟨hs, hc⟩ := hc
  · obtain rfl := seatOfWheel_of_toNat hv hw
    rw [if_pos hs]
  rw [if_neg fun h => hs ⟨w, hw, h⟩]
  obtain ⟨⟨v, hv, hs⟩, rfl⟩ | ⟨_, hnone⟩ := hc
  · obtain rfl := seatOfWheel_of_toNat hv hw
    rw [if_pos hs]
  · exact hnone.elim

theorem run_iff (c : ProbeCheck) : c.run = true ↔ c.count ≥ 10 * c.steps := by
  rw [ProbeCheck.run, decide_eq_true_iff]

theorem takeCheckEnd_of_run {c : ProbeCheck} (hc : s.wheels[w].check = some c) (hrun : c.count ≥ 10 * c.steps) :
    takeCheckEnd w s = (s.setWheel w { s.wheels[w] with
      check := none, lastResult := if c.tested then .pass else .noData }).raise (seatOfWheel w) .check := by
  cases ht : c.tested <;>
    simp only [takeCheckEnd, hc, (run_iff c).2 hrun, ht, endCheck, finishCheck, if_true, Bool.false_eq_true, if_false]

theorem takeCheckEnd_of_not_run (h : ∀ c, s.wheels[w].check = some c → c.count < 10 * c.steps) :
    takeCheckEnd w s = s := by
  cases hc : s.wheels[w].check with
  | none => simp only [takeCheckEnd, hc]
  | some c => simp only [takeCheckEnd, hc, if_neg (mt (run_iff c).1 (Nat.not_le.2 (h c hc)))]

end Check

theorem durationArg_eq (b : Byte) : durationArg b = if b = 0 then 1 else b.toNat := by
  unfold durationArg
  by_cases h : b = 0
  · subst h
    rfl
  · rw [if_neg h]
    have : b.toNat ≠ 0 := fun h' => h (BitVec.eq_of_toNat_eq h')
    omega

/-- A step whose event changes nothing changes nothing where the pins are driven. -/
theorem whenRunning_of_same {s : State} {f : State → State} (h : s.nRST = true) (hp : PinsDriven s) (hf : f s = s) :
    whenRunning s f = .next s := by
  rw [whenRunning_eq h, hf, commit_self hp]

/-- Settles O49. -/
theorem checkBeginsAndEnds : Obligations.CheckBeginsAndEnds := by
  constructor
  · intro seat lo hi duration s q w h hq hw hs hphase hfault hcheck hle
    subst hw
    have hcmd := checkCommand_of_wheel (lo := lo) (hi := hi) (duration := duration) (s := s) hq
    have hgood : ¬ (¬ InService s (seatOfWheel w) ∨ s.wheels[w].phase ≠ .idle ∨ s.scan.fault = true) := by
      rintro (hn | hn | hn)
      · exact hn hs
      · exact hn hphase
      · rw [hfault] at hn
        cases hn
    rw [if_neg (Nat.not_lt.2 hle), if_neg hgood, if_neg (not_not.2 hcheck), startCheck, durationArg_eq] at hcmd
    exact completesAs_of h (exec_check s seat lo hi duration) hcmd
  · intro w s h
    refine ⟨fun c hc hrun => ?_, fun hp hc => ?_⟩
    · rw [exec_checkDurationEnd, whenRunning_eq h, takeCheckEnd_of_run hc hrun]
    · rw [exec_checkDurationEnd, whenRunning_of_same h hp (takeCheckEnd_of_not_run hc)]

/-! ### DRESS -/

section Dress

variable {seat : Byte} {infeed : Half} {s : State} {q : SeatNo}

theorem dressCommand_bad_seat (h : seat.toNat > 15) : dressCommand seat infeed s = (s, reply .badArg) := by
  simp only [dressCommand, seatArg_gt h]

theorem dressCommand_of_dresser (hq : seat.toNat = q.val) (h : q.val % 4 ≥ 2) :
    dressCommand seat infeed s = (s, reply .wrongKind) := by
  simp only [dressCommand, seatArg_of_toNat hq, wheelOf_dresser q h]

theorem dressCommand_of_wheel {w : WheelNo} (hq : seat.toNat = (seatOfWheel w).val) : dressCommand seat infeed s =
    if HoldsTool s (seatOfWheel w) then dressWheel s w (infeedArg infeed) else (s, reply .noTool) := by
  simp only [dressCommand, seatArg_of_toNat hq, wheelOf_seatOfWheel, holdsTool_iff]

theorem dressCommand_refuses {c : ReplyCode}
    (hc : FirstFailing [(seat.toNat > 15, .badArg), (seat.toNat % 4 ≥ 2, .wrongKind),
      (∃ q : SeatNo, seat.toNat = q.val ∧ ¬ HoldsTool s q, .noTool)] c) :
    dressCommand seat infeed s = (s, reply c) := by
  obtain ⟨hb, rfl⟩ | ⟨hb, hc⟩ := hc
  · exact dressCommand_bad_seat hb
  obtain ⟨hd, rfl⟩ | ⟨hd, hc⟩ := hc
  · obtain ⟨q, hq⟩ := seatArg_le hb
    exact dressCommand_of_dresser hq (hq ▸ hd)
  obtain ⟨w, hw⟩ := wheel_of_seatArg hb hd
  obtain ⟨⟨q, hq, hn⟩, rfl⟩ | ⟨_, hnone⟩ := hc
  · obtain rfl : q = seatOfWheel w := Fin.ext (hq.symm.trans hw)
    rw [dressCommand_of_wheel hw, if_neg hn]
  · exact hnone.elim

theorem dressWheel_eq (w : WheelNo) (n : Nat) : dressWheel s w n =
    let u := dressSeat s (seatOfWheel w) n
    if HoldsTool u (dresserOf w) then (dressSeat u (dresserOf w) (u.rollWearAt (dresserOf w)), reply .done)
    else (u, reply .dresserSkipped) := by
  simp only [dressWheel, holdsTool_iff]

theorem infeedArg_eq (x : Half) : infeedArg x = within 1 2000 x.toNat := by
  unfold infeedArg clamp within
  grind

end Dress

/-- Settles O50. -/
theorem checkAndDressChecks : Obligations.CheckAndDressChecks :=
  ⟨fun seat lo hi duration s _ h hc => answers_of h (exec_check s seat lo hi duration) (checkCommand_refuses hc),
    fun seat infeed s _ h hc => answers_of h (exec_dress s seat infeed) (dressCommand_refuses hc)⟩

end Sys2Proof.Proofs

/-! The command link: the status byte (R164), the frames at the rise of nSEL (R162 to R168, R172) and the watchdog (R173,
R174). O55 to O59 from these. -/

namespace Sys2Proof.Proofs

open Sys2Proof.Machine Sys2Proof.Safety Sys2Proof.Laws

/-! ### The status byte -/

/-- The conditions that the status byte shows, from bit 0 to bit 7. -/
def statusBits (s : State) : List Bool :=
  [s.scan.fault, someSeat s .waiting, someSeat s .halted, s.link.hold, s.link.linkErr, s.link.buffer.isPending,
    s.link.buffer.isStored, s.notices.any]

theorem statusByte_bit (s : State) {i : Nat} (hi : i < 8) : (statusByte s).getLsbD i = (statusBits s).getD i false :=
  bits8_bit _ _ _ _ _ _ _ _ i hi

theorem isStored_iff (b : ReplyBuffer) : b.isStored = true ↔ ∃ r, b = .stored r := by
  cases b <;> simp [ReplyBuffer.isStored]

theorem isPending_iff (b : ReplyBuffer) : b.isPending = true ↔ ∃ c, b = .pending c := by
  cases b <;> simp [ReplyBuffer.isPending]

/-- A command does not touch the frame in progress. -/
theorem command_frame {i : Instr} {f : State → State × Reply} (hf : commandOf i = some f) (s : State) :
    (f s).1.link.frame = s.link.frame := by
  generalize ht : (f s).1 = t
  cases ht ▸ command_touches hf s with
  | rest h => rw [h.link]
  | records | channel | notices | link => rfl

/-- An event that is not of a frame does not touch the frame in progress. -/
theorem event_frame {i : Instr} {f : State → State} (hf : eventOf i = some f) (hi : ¬ IsFrame i) (s : State) :
    (f s).link.frame = s.link.frame := by
  generalize ht : f s = t
  cases ht ▸ event_stirs hf s with
  | control h => rw [h.link]
  | frame h => exact absurd h hi
  | conversion code _ h => rw [h.link]
  | expiry => rfl

theorem rowOf_not_frame (e : Due) : ¬ IsFrame (rowOf e) := by
  rintro (⟨m, a, l, h | h | h⟩ | ⟨m, b, h⟩) <;> cases e <;> cases h

theorem settle_frame (s : State) : (settle s).link.frame = s.link.frame :=
  settle_induction (P := fun u => u.link.frame = s.link.frame) (fun _ _ h => h)
    (fun e _ u hf h => (event_frame hf (rowOf_not_frame e) u).trans h) rfl

/-- Settles O55: the byte bit by bit, and what each way of acting leaves of the frame in progress. -/
theorem statusByteShowsTheConditions : Obligations.StatusByteShowsTheConditions := by
  constructor
  · intro s
    refine ⟨?_, ?_, ?_, ?_, ?_, ?_, ?_, ?_⟩ <;> rw [statusByte_bit s (by decide)]
    · exact notices_any_iff s.notices
    · exact isStored_iff s.link.buffer
    · exact isPending_iff s.link.buffer
    · rfl
    · rfl
    · exact someSeat_iff s .halted
    · exact someSeat_iff s .waiting
    · rfl
  · intro i s t h hframe hnoKind hrestart hlow hhigh hpower
    have hi : ¬ IsFrame i := by
      rintro (⟨m, a, l, hi⟩ | ⟨m, b, hi⟩)
      · obtain ⟨h1, h2, h3⟩ := hframe m a l
        exact hi.elim h1 (fun hi => hi.elim h2 h3)
      · exact hnoKind m b hi
    cases exec_acts h with
    | idle => rfl
    | waits => rfl
    | completes f hf => exact command_frame hf s
    | takes f hf => exact event_frame hf hi s
    | ticks => exact settle_frame s
    | resets cause n hi =>
      obtain hi | hi | hi | ⟨n, hi⟩ := hi
      exacts [absurd hi hrestart, absurd hi hlow, absurd hi hhigh, absurd hi (hpower n)]

/-! ### A frame at the rise of nSEL -/

section Rise

variable {s : State} {addr : BitVec 2} {f : Frame} {tail : List Bool}

/-- The third byte of a frame that forms no reply changes nothing. -/
theorem thirdByte_id (hn : s.nRST = true) (hp : PinsDriven s) (rise : State → State) :
    whenRunning s (atMoment .thirdByte id rise) = .next s := whenRunning_of_same hn hp rfl

/-- A frame that is not addressed to the part is ignored. -/
theorem rise_ignored (hn : s.nRST = true) (hp : PinsDriven s) {take : Frame → State → State} {third : State → State}
    (h : ∀ f, ¬ Addressed s addr f) :
    whenRunning s (atMoment .rise third (endFrame addr take)) = .next ((s.setLink (passed s.link)).setSdo none) := by
  rw [whenRunning_eq hn, atMoment, endFrame_ignored take h, commit_passFrame hp, passFrame_eq]

/-- An addressed frame ends as its kind takes it; what it makes of the link and of SDO drives nothing anew. -/
theorem rise_addressed (hn : s.nRST = true) (hp : PinsDriven s) {take : Frame → State → State} {third : State → State}
    {l : Link} {x : Option (List Bool)} (ha : Addressed s addr f) (hl : l.hold = s.link.hold)
    (ht : take f s = (s.setLink l).setSdo x) :
    whenRunning s (atMoment .rise third (endFrame addr take)) = .next ((s.setLink l).setSdo x) := by
  rw [whenRunning_eq hn, atMoment, endFrame_addressed take ha, ht, commit_setLink_setSdo hp l hl]

/-! ### STATUS frames and frames of no kind -/

/-- A STATUS frame is accepted when it has 16 clocks and its second byte is the check byte of its header. -/
theorem statusAccepted_iff : (4 + tail.length == 16 && headerChecked f.crcen (bytesOf (headerBits addr false false ++ tail)))
      = true ↔
    ∃ low b, tail = lowBits low ++ bitsOf b ∧ (f.crcen = true → b = crc8 [headerByte addr false false low]) := by
  rw [Bool.and_eq_true, beq_iff_eq]
  have hchecked (low : BitVec 4) (b : Byte) :
      headerChecked f.crcen (bytesOf (headerBits addr false false ++ (lowBits low ++ bitsOf b))) = true ↔
        (f.crcen = true → b = crc8 [headerByte addr false false low]) := by
    have hbytes := frame_bytes addr false false low [b]
    rw [List.flatMap_singleton] at hbytes
    rw [hbytes, headerChecked, Bool.or_eq_true, Bool.not_eq_true', beq_iff_eq, ← Bool.not_eq_true, imp_iff_not_or]
  constructor
  · rintro ⟨hlength, h⟩
    obtain ⟨low, bs, rfl, hbs⟩ := tail_split tail 1 (by omega)
    obtain ⟨b, rfl⟩ := List.length_eq_one_iff.1 hbs
    rw [List.flatMap_singleton] at h ⊢
    exact ⟨low, b, rfl, (hchecked low b).1 h⟩
  · rintro ⟨low, b, rfl, h⟩
    exact ⟨rfl, (hchecked low b).2 h⟩

theorem takeStatus_accepted {low : BitVec 4} {b : Byte} (ht : tail = lowBits low ++ bitsOf b)
    (hb : f.crcen = true → b = crc8 [headerByte addr false false low]) :
    takeStatus addr tail f s = (s.setLink (heard s.link)).setSdo (some (bitsOf f.status)) := by
  have hsdo : sdoOver tail [f.status] = some (bitsOf f.status) := by
    rw [ht]
    rfl
  simp only [takeStatus, statusAccepted_iff.2 ⟨low, b, ht, hb⟩, if_true, acceptFrame_eq, answered_eq, hsdo]

theorem takeStatus_rejected (h : ∀ low b, tail = lowBits low ++ bitsOf b →
      f.crcen = true ∧ b ≠ crc8 [headerByte addr false false low]) :
    takeStatus addr tail f s = (s.setLink (rejected s.link)).setSdo (sdoOver tail [f.status]) := by
  have hno := mt (statusAccepted_iff (addr := addr) (f := f) (tail := tail)).1 (by
    rintro ⟨low, b, ht, hb⟩
    obtain ⟨hc, hne⟩ := h low b ht
    exact hne (hb hc))
  simp only [takeStatus, if_neg hno, rejectFrame_eq, answered_eq]

theorem noKind_ignored (hn : s.nRST = true) (hp : PinsDriven s) {bits : NoKind} (h : takeNoKind bits s = passFrame s) :
    exec (.frameOfNoKind .rise bits) s = .next ((s.setLink (passed s.link)).setSdo none) := by
  rw [exec_frameOfNoKind, whenRunning_eq hn, atMoment, h, commit_passFrame hp, passFrame_eq]

theorem noKind_rejected (hn : s.nRST = true) (hp : PinsDriven s) {bits : NoKind} {x : Option (List Bool)}
    (h : takeNoKind bits s = (rejectFrame s).setSdo x) :
    exec (.frameOfNoKind .rise bits) s = .next ((s.setLink (rejected s.link)).setSdo x) := by
  rw [exec_frameOfNoKind, whenRunning_eq hn, atMoment, h, rejectFrame_eq, commit_setLink_setSdo hp (rejected s.link) rfl]

end Rise

/-- Settles O56. -/
theorem statusAndKindlessFrames : Obligations.StatusAndKindlessFrames := by
  constructor
  · intro addr tail s hn hp
    refine ⟨begins_of hp hn fun _ _ => rfl, thirdByte_id hn hp _, rise_ignored hn hp, fun f ha => ⟨?_, fun h => ?_⟩⟩
    · exact fun low b ht hb => rise_addressed hn hp ha rfl (takeStatus_accepted ht hb)
    · exact rise_addressed hn hp ha rfl (takeStatus_rejected h)
  · intro bits s hn hp
    refine ⟨begins_of hp hn fun _ _ => rfl, thirdByte_id hn hp _, ?_, ?_⟩
    · rintro (rfl | ⟨a, rfl⟩) <;> exact noKind_ignored hn hp rfl
    · intro addr tail hbits
      have hignored (h : ∀ f, ¬ Addressed s addr f) : takeNoKind bits s = passFrame s := by
        obtain ⟨rfl, _⟩ | ⟨⟨k, rfl⟩, _⟩ | rfl := hbits <;> rw [takeNoKind, endFrame_ignored _ h]
      have hrejected (f : Frame) (ha : Addressed s addr f) :
          takeNoKind bits s = (rejectFrame s).setSdo (sdoOver tail [f.status]) := by
        obtain ⟨rfl, rfl⟩ | ⟨⟨k, rfl⟩, rfl⟩ | rfl := hbits
        · rw [takeNoKind, endFrame_addressed _ ha]
          rfl
        · rw [takeNoKind, endFrame_addressed _ ha]
          rfl
        · rw [takeNoKind, endFrame_addressed _ ha, answered_eq]
      exact ⟨fun h => noKind_ignored hn hp (hignored h), fun f ha => noKind_rejected hn hp (hrejected f ha)⟩

/-! ### COMMAND frames -/

section Command

variable {s : State} {addr : BitVec 2} {f : Frame} {tail : List Bool} {i : Instr}

/-- The command of a COMMAND frame of whole bytes, and the bytes after the header that carry it. -/
theorem frameCommand_some {crcen : Bool} {h : Byte} {bs : List Byte} : frameCommand crcen (h :: bs) = some i ↔
    ∃ code args, encodeCommand i = some (code, args)
      ∧ bs = code :: args ++ if crcen then [crc8 (h :: code :: args)] else [] := by
  constructor
  · intro hc
    match bs, hc with
    | code :: rest, hc =>
      rw [frameCommand] at hc
      cases crcen with
      | false => exact ⟨code, rest, encode_of_decodeCommand hc, (List.append_nil _).symm⟩
      | true =>
        rw [if_pos rfl] at hc
        split at hc
        · next hlast =>
          refine ⟨code, rest.dropLast, encode_of_decodeCommand hc, ?_⟩
          rw [if_pos rfl, List.cons_append, List.dropLast_append_getLast? _ hlast]
        · cases hc
  · rintro ⟨code, args, he, rfl⟩
    cases crcen with
    | false =>
      rw [if_neg Bool.false_ne_true, List.append_nil]
      exact decode_of_encodeCommand he
    | true =>
      rw [if_pos rfl, List.cons_append, frameCommand, List.dropLast_concat, List.getLast?_concat, if_pos rfl, if_pos rfl]
      exact decode_of_encodeCommand he

theorem carries_iff : Carries f.crcen addr tail i ↔
    (4 + tail.length) % 8 = 0 ∧ frameCommand f.crcen (bytesOf (headerBits addr false true ++ tail)) = some i := by
  constructor
  · rintro ⟨low, code, args, he, rfl⟩
    refine ⟨?_, ?_⟩
    · rw [List.length_append, lowBits_length, flatMap_bitsOf_length]
      omega
    · rw [frame_bytes]
      exact frameCommand_some.2 ⟨code, args, he, rfl⟩
  · rintro ⟨hclocks, hc⟩
    obtain ⟨low, bs, rfl, _⟩ := tail_split tail ((4 + tail.length) / 8 - 1) (by omega)
    rw [frame_bytes] at hc
    obtain ⟨code, args, he, rfl⟩ := frameCommand_some.1 hc
    exact ⟨low, code, args, he, rfl⟩

theorem isPending_eq_false {b : ReplyBuffer} (h : ∀ c, b ≠ .pending c) : b.isPending = false := by
  rw [← Bool.not_eq_true, isPending_iff]
  exact fun ⟨c, hc⟩ => h c hc

theorem takeCommand_accepted (hb : ∀ c, s.link.buffer ≠ .pending c) (hc : Carries f.crcen addr tail i) :
    takeCommand addr tail f s =
      (s.setLink { heard s.link with buffer := .pending i }).setSdo (sdoOver tail [f.status]) := by
  obtain ⟨hclocks, hc⟩ := carries_iff.1 hc
  simp only [takeCommand, if_pos (And.intro hclocks (isPending_eq_false hb)), hc, acceptFrame_eq, answered_eq]
  rfl

theorem takeCommand_rejected (h : (∃ c, s.link.buffer = .pending c) ∨ ∀ i, ¬ Carries f.crcen addr tail i) :
    takeCommand addr tail f s = (s.setLink (rejected s.link)).setSdo (sdoOver tail [f.status]) := by
  by_cases hgo : (4 + tail.length) % 8 = 0 ∧ s.link.buffer.isPending = false
  · cases hc : frameCommand f.crcen (bytesOf (headerBits addr false true ++ tail)) with
    | none => simp only [takeCommand, if_pos hgo, hc, rejectFrame_eq, answered_eq]
    | some i =>
      obtain hpend | hno := h
      · rw [(isPending_iff _).2 hpend] at hgo
        exact Bool.noConfusion hgo.2
      · exact absurd (carries_iff.2 ⟨hgo.1, hc⟩) (hno i)
  · simp only [takeCommand, if_neg hgo, rejectFrame_eq, answered_eq]

end Command

/-- Settles O57. -/
theorem commandFrameIsTakenOrRejected : Obligations.CommandFrameIsTakenOrRejected :=
  fun _ _ _ hn hp => ⟨begins_of hp hn fun _ _ => rfl, thirdByte_id hn hp _, rise_ignored hn hp,
    fun _ ha => ⟨fun _ hb hc => rise_addressed hn hp ha rfl (takeCommand_accepted hb hc),
      fun h => rise_addressed hn hp ha rfl (takeCommand_rejected h)⟩⟩

/-! ### FETCH frames -/

section Fetch

variable {s : State} {addr : BitVec 2} {f : Frame} {tail : List Bool}

theorem replyBytes_eq (crcen : Bool) (b : ReplyBuffer) : replyBytes crcen b = fetched crcen b := by
  cases b <;> rfl

theorem formReply_forms (ha : Addressed s addr f) (hm : Matched f.crcen addr tail) (hr : f.reply = none) :
    formReply addr tail s =
      s.setLink { s.link with frame := some { f with reply := some (fetched f.crcen s.link.buffer) } } := by
  simp only [formReply, (addressed_iff s addr f).2 ha, if_pos (And.intro hr ((fetchMatched_iff _ _ _).2 hm)),
    replyBytes_eq]

theorem formReply_unmatched (ha : Addressed s addr f) (h : ¬ Matched f.crcen addr tail ∨ f.reply ≠ none) :
    formReply addr tail s = s := by
  have hno : ¬ (f.reply = none ∧ fetchMatched f.crcen addr tail = true) := by
    rw [fetchMatched_iff]
    exact fun ⟨hr, hm⟩ => h.elim (fun hn => hn hm) (fun hn => hn hr)
  simp only [formReply, (addressed_iff s addr f).2 ha, if_neg hno]

theorem formReply_ignored (h : ∀ f, ¬ Addressed s addr f) : formReply addr tail s = s := by
  have hno : s.addressed addr = none :=
    Option.eq_none_iff_forall_ne_some.2 fun f hf => h f ((addressed_iff s addr f).1 hf)
  simp only [formReply, hno]

theorem takeFetch_accepted (hm : Matched f.crcen addr tail) (hwhole : (4 + tail.length) % 8 = 0)
    (hlong : 4 + tail.length ≥ 24) : takeFetch addr tail f s = (s.setLink (heard s.link)).setSdo
      (sdoOver tail (f.status :: f.reply.getD (fetched f.crcen s.link.buffer))) := by
  simp only [takeFetch, (fetchMatched_iff _ _ _).2 hm, hwhole, decide_eq_true hlong, beq_self_eq_true, Bool.and_self,
    if_true, acceptFrame_eq, answered_eq, replyBytes_eq]

theorem takeFetch_short (hm : Matched f.crcen addr tail) (h : (4 + tail.length) % 8 ≠ 0 ∨ 4 + tail.length < 24) :
    takeFetch addr tail f s = (s.setLink (rejected s.link)).setSdo
      (sdoOver tail (f.status :: f.reply.getD (fetched f.crcen s.link.buffer))) := by
  have hno : ((4 + tail.length) % 8 == 0 && decide (24 ≤ 4 + tail.length)) = false := by
    rw [Bool.and_eq_false_iff, beq_eq_false_iff_ne, decide_eq_false_iff_not, Nat.not_le]
    exact h
  simp only [takeFetch, (fetchMatched_iff _ _ _).2 hm, hno, Bool.false_and, Bool.false_eq_true, if_false, if_true,
    rejectFrame_eq, answered_eq, replyBytes_eq]

theorem takeFetch_unmatched (hm : ¬ Matched f.crcen addr tail) :
    takeFetch addr tail f s = (s.setLink (rejected s.link)).setSdo (sdoOver tail [f.status]) := by
  have hno : fetchMatched f.crcen addr tail = false := by
    rw [← Bool.not_eq_true, fetchMatched_iff]
    exact hm
  simp only [takeFetch, hno, Bool.and_false, Bool.false_eq_true, if_false, rejectFrame_eq, answered_eq]

end Fetch

/-- Settles O58. -/
theorem fetchReturnsTheReply : Obligations.FetchReturnsTheReply := by
  intro addr tail s hn hp
  refine ⟨begins_of hp hn fun _ _ => rfl, fun h => ⟨whenRunning_of_same hn hp (formReply_ignored h), rise_ignored hn hp h⟩,
    fun f ha => ⟨fun hm hr => ?_, fun h => whenRunning_of_same hn hp (formReply_unmatched ha h),
      fun hm hw hl => rise_addressed hn hp ha rfl (takeFetch_accepted hm hw hl),
      fun hm h => rise_addressed hn hp ha rfl (takeFetch_short hm h),
      fun hm => rise_addressed hn hp ha rfl (takeFetch_unmatched hm)⟩⟩
  rw [exec_fetchFrame, whenRunning_eq hn, atMoment, formReply_forms ha hm hr]
  exact congrArg _ (commit_setLink hp _ rfl)

/-! ### The watchdog -/

theorem ticks_eq (p : WatchdogPeriod) : p.ticks = periodTicks p := by cases p <;> rfl

theorem expired_iff (l : Link) : l.expired = true ↔ ∃ c n, l.watchdog = some c ∧ periodTicks l.period = some n ∧ c ≥ n := by
  rw [Link.expired, ticks_eq]
  cases l.watchdog <;> cases periodTicks l.period <;> simp

/-- Settles O59. -/
theorem watchdogExpiryEntersHold : Obligations.WatchdogExpiryEntersHold := by
  intro s hn
  rw [exec_watchdogExpiry]
  refine ⟨fun c n hc hperiod hle => ?_, fun hp hc => ?_⟩
  · have htake : takeExpiry s = (s.setLink { s.link with hold := true, watchdog := none }).raiseHold :=
      if_pos ((expired_iff s.link).2 ⟨c, n, hc, hperiod, hle⟩)
    rw [whenRunning_eq hn, htake]
    have hdriven := commit_pinsDriven s ((s.setLink { s.link with hold := true, watchdog := none }).raiseHold)
    refine ⟨_, rfl, rfl, rfl, fun st => ⟨?permit, (hdriven.lamp st).2 (.inl rfl)⟩,
      hdriven.nATTN.2 (.inr (.inr (.inl rfl))), rfl, rfl, rfl, rfl, rfl, rfl, rfl, fun st => commit_partOpen _ _ st⟩
    refine Bool.eq_false_iff.2 fun hpermit => ?_
    obtain ⟨hhold, _⟩ := (hdriven.permit st).1 hpermit
    exact Bool.noConfusion hhold
  · refine whenRunning_of_same hn hp (if_neg ?_)
    rw [expired_iff]
    rintro ⟨c, n, hc', hperiod, hle⟩
    exact Nat.lt_irrefl _ (Nat.lt_of_lt_of_le (hc c n hc' hperiod) hle)

end Sys2Proof.Proofs

/-! The events of a wheel seat and of a station: the edges of CUT (R84 to R87), the ends of the phase and stretch timers
(R86, R88, R159) and the firings that raise a suspicion (R135, R137, R139). O37, O38, O40 and O47 from these. -/

namespace Sys2Proof.Proofs

open Sys2Proof.Machine Sys2Proof.Safety Sys2Proof.Laws

/-! ### Raising a notice, beside what it leaves alone -/

theorem raiseIf_setStation (s : State) (p : Prop) [Decidable p] (q : SeatNo) (n : SeatNotice) (st : StationNo)
    (x : Station) : raiseIf (s.setStation st x) p q n = (raiseIf s p q n).setStation st x := by
  unfold raiseIf
  split <;> rfl

theorem raiseIf_freeCount (s : State) (p : Prop) [Decidable p] (q : SeatNo) (n : SeatNotice) (k : Nat) :
    raiseIf { s with freeCount := k } p q n = { raiseIf s p q n with freeCount := k } := by
  unfold raiseIf
  split <;> rfl

/-! ### The ends of the phase timer and of the stretch timer -/

theorem phaseRun_iff (x : Wheel) : x.phaseRun = true ↔ ∃ t, x.phaseTimer = some t ∧ t.count ≥ t.time := by
  unfold Wheel.phaseRun
  cases x.phaseTimer <;> simp

theorem stretchRun_iff (x : Station) : x.stretchRun = true ↔ ∃ t, x.stretch = some t ∧ t.count ≥ t.time := by
  unfold Station.stretchRun
  cases x.stretch <;> simp

/-- A phase timer whose count is below its time has not run. -/
theorem phaseRun_of_short {x : Wheel} {phase : Phase} (h : x.phase ≠ phase ∨ ∀ t, x.phaseTimer = some t → t.count < t.time) :
    ¬ (x.phase = phase ∧ x.phaseRun = true) := by
  rw [phaseRun_iff]
  rintro ⟨hp, t, ht, hle⟩
  exact h.elim (fun h => h hp) fun h => absurd hle (Nat.not_le.2 (h t ht))

/-- Settles O40. -/
theorem phaseAndStretchTimersEnd : Obligations.PhaseAndStretchTimersEnd := by
  intro s hn hp
  refine ⟨fun w t hphase ht hle => ?_, fun w h => ?_, fun w t hphase ht hle => ?_, fun w h => ?_, fun st t ht hle => ?_,
    fun st h => ?_⟩
  · rw [exec_engageDelayEnd, whenRunning_eq hn, takeEngageEnd, if_pos ⟨hphase, (phaseRun_iff _).2 ⟨t, ht, hle⟩⟩,
      commit_setWheel hp]
  · exact whenRunning_of_same hn hp (if_neg (phaseRun_of_short h))
  · rw [exec_blankingTimeEnd, whenRunning_eq hn, takeBlankingEnd, if_pos ⟨hphase, (phaseRun_iff _).2 ⟨t, ht, hle⟩⟩,
      commit_setWheel hp]
  · exact whenRunning_of_same hn hp (if_neg (phaseRun_of_short h))
  · rw [exec_stretchTimerEnd, whenRunning_eq hn, takeStretchEnd, if_pos ((stretchRun_iff _).2 ⟨t, ht, hle⟩)]
  · refine whenRunning_of_same hn hp (if_neg ?_)
    rw [stretchRun_iff]
    exact fun ⟨t, ht, hle⟩ => absurd hle (Nat.not_le.2 (h t ht))

/-! ### Firings -/

theorem fired_iff (t : Option WatchTimer) : fired t = true ↔ ∃ c, t = some { count := c, fires := true } := by
  cases t with
  | none => simp [fired]
  | some t =>
    obtain ⟨count, fires⟩ := t
    simp [fired]

/-- A suspicion at a seat without an ACTIVE record has no effect. -/
theorem suspicion_of_not_active {s : State} {w : WheelNo} (cause : BreakCause)
    (h : ∀ r, s.holder (seatOfWheel w) = some r → r.state ≠ .active) : suspicion s w cause = s := by
  cases hh : s.holder (seatOfWheel w) with
  | none => simp only [suspicion, hh]
  | some r => simp only [suspicion, hh, if_neg (h r hh)]

section Firings

variable {w : WheelNo} {s : State}

theorem takeFilter_of_fired {k : FilterKind} (h : Fired s w k) :
    takeFilter w k s = suspicion (s.setWheel w (s.wheels[w].stopFilter k)) w (FilterKind.cause k) :=
  if_pos ((fired_iff _).2 h)

theorem takeFilter_of_not_fired {k : FilterKind} (h : ¬ Fired s w k) : takeFilter w k s = s :=
  if_neg (mt (fired_iff _).1 h)

theorem takeOvertime_of_met {c : Nat} (h : s.wheels[w].cutTimer = some { count := c, fires := true }) :
    takeOvertime w s =
      suspicion (s.setWheel w { s.wheels[w] with cutTimer := some { count := c, fires := false } }) w .overtime := by
  simp only [takeOvertime, h, if_true]

theorem takeOvertime_of_not_met (h : ∀ c, s.wheels[w].cutTimer ≠ some { count := c, fires := true }) :
    takeOvertime w s = s := by
  cases ht : s.wheels[w].cutTimer with
  | none => simp only [takeOvertime, ht]
  | some t =>
    obtain ⟨count, fires⟩ := t
    cases fires with
    | false => simp only [takeOvertime, ht, Bool.false_eq_true, if_false]
    | true => exact absurd ht (h count)

theorem stopFilter_suspected {r : ToolRecord} {k : FilterKind} (hh : s.holder (seatOfWheel w) = some r)
    (hr : r.state = .active) (cause : BreakCause) :
    suspicion (s.setWheel w (s.wheels[w].stopFilter k)) w cause = suspected s w r cause s.wheels[w].cutTimer := by
  cases k <;> exact suspicion_eq s w r cause _ hh hr rfl rfl rfl

end Firings

/-- Settles O47. -/
theorem firingRaisesASuspicion : Obligations.FiringRaisesASuspicion := by
  constructor
  · intro w s r q hn hq hh hr
    subst hq
    refine ⟨fun k hk => ?_, fun c hc => ?_⟩
    · rw [exec_filterTimerFires, whenRunning_eq hn, takeFilter_of_fired hk, stopFilter_suspected hh hr]
    · rw [exec_overtime, whenRunning_eq hn, takeOvertime_of_met hc, 
        suspicion_eq s w r .overtime { s.wheels[w] with cutTimer := some { count := c, fires := false } } hh hr rfl rfl rfl]
  · intro w s hn hp
    refine ⟨fun k hk => whenRunning_of_same hn hp (takeFilter_of_not_fired hk),
      fun hc => whenRunning_of_same hn hp (takeOvertime_of_not_met hc), fun hh => ⟨fun k hk => ?_, fun c hc => ?_⟩⟩
    · rw [exec_filterTimerFires, whenRunning_eq hn, takeFilter_of_fired hk,
        suspicion_of_not_active (s := s.setWheel w _) _ hh, commit_setWheel hp]
    · rw [exec_overtime, whenRunning_eq hn, takeOvertime_of_met hc,
        suspicion_of_not_active (s := s.setWheel w _) _ hh, commit_setWheel hp]

/-! ### The rising edge of CUT -/

section CutRise

variable {w : WheelNo} {s : State}

theorem takeCutRise_in_service (hs : InService s (seatOfWheel w)) : takeCutRise w s =
    if CutOpen s w then takeCutMark s w .rising else beginCut (takeCutMark s w .rising) w := by
  obtain ⟨l, hl⟩ := takeCutMark_eq s w .rising
  simp only [takeCutRise, hl, cutOpen_iff]
  obtain hs | hs := hs <;> simp only [hs]

theorem takeCutRise_out_of_service (hs : ¬ InService s (seatOfWheel w)) :
    takeCutRise w s = (takeCutMark s w .rising).raise (seatOfWheel w) .foreign := by
  obtain ⟨l, hl⟩ := takeCutMark_eq s w .rising
  simp only [takeCutRise, hl]
  cases h : s.seats[seatOfWheel w].service with
  | running => exact absurd (.inl h) hs
  | due => exact absurd (.inr h) hs
  | unbound | waiting | changing | halted => rfl

theorem engageTime_of {g : GroupNo} {grp : Group} (hg : s.seats[seatOfWheel w].group = some g)
    (hgs : s.groups[g] = some grp) : s.engageTime w = 10 * grp.params.engageDelay := by
  rw [State.engageTime, wheelParams_of hg hgs]

theorem blankingTime_of {g : GroupNo} {grp : Group} (hg : s.seats[seatOfWheel w].group = some g)
    (hgs : s.groups[g] = some grp) : s.blankingTime w = 10 * grp.params.blankingTime := by
  rw [State.blankingTime, wheelParams_of hg hgs]

theorem beginCut_eq {g : GroupNo} {grp : Group} (hg : s.seats[seatOfWheel w].group = some g)
    (hgs : s.groups[g] = some grp) : beginCut s w =
    ((raiseIf s (s.wheels[w].check ≠ none) (seatOfWheel w) .check).setStation (stationOfWheel w)
        { s.stations[stationOfWheel w] with partOpen := true }).setWheel w
      { s.wheels[w] with
        phase := if grp.params.engageDelay = 0 then .cut else .engage
        phaseTimer := if grp.params.engageDelay = 0 then none
          else some { count := 0, time := 10 * grp.params.engageDelay }
        cutBlanking := 10 * grp.params.blankingTime
        cutSeen := true, cutTimer := some { count := 0, fires := false }, contact := none, check := none
        lastResult := if s.wheels[w].check = none then s.wheels[w].lastResult else .aborted } := by
  have hzero : 10 * grp.params.engageDelay = 0 ↔ grp.params.engageDelay = 0 := by omega
  rw [beginCut, engageTime_of hg hgs, blankingTime_of hg hgs]
  simp only [hzero]
  rw [abortCheck_eq, raiseIf_setStation, raiseIf_setWheel]
  simp only [setStation_wheels, setWheel_get, setWheel_stations]
  exact setWheel_setWheel (State.setStation _ _ _) w _ _

end CutRise

/-- Settles O37. -/
theorem cutRisingEdgeBeginsACut : Obligations.CutRisingEdgeBeginsACut := by
  intro w s hn
  refine ⟨fun g grp hs hc hg hgs => ?_, fun hs => ?_, fun hs hc => ?_⟩
  · obtain ⟨l, hl⟩ := takeCutMark_eq s w .rising
    rw [exec_cutRisingEdge, whenRunning_eq hn, takeCutRise_in_service hs, if_neg hc, hl,
      beginCut_eq (s := { s with cutLines := l }) hg hgs]
  · rw [exec_cutRisingEdge, whenRunning_eq hn, takeCutRise_out_of_service hs]
  · rw [exec_cutRisingEdge, whenRunning_eq hn, takeCutRise_in_service hs, if_pos hc]

/-! ### The falling edge of CUT -/

theorem tell_of_not_told {u : State} {b : Bool} {q : SeatNo} (h : b = false) : Machine.tell (u, b) q = u := by
  rw [h]
  rfl

theorem tell_of_told {u : State} {b : Bool} {q : SeatNo} (h : b = true) : Machine.tell (u, b) q = toolEnded u q := by
  rw [h]
  rfl

/-- The wheel seat after a falling edge has started the time given, the cut still to be charged. -/
def settled (x : Wheel) (time : Nat) : Wheel :=
  { x with
    phase := if time = 0 then .idle else .settle
    phaseTimer := if time = 0 then none else some { count := 0, time := time }
    loss := none, overload := none }

theorem takeCutFall_of_open {w : WheelNo} {s m : State} (hm : takeCutMark s w .falling = m) (h : CutOpen m w) :
    takeCutFall w s = Machine.tell (closeCut
      ({ m with freeCount := m.freeCount + 1 }.setWheel w (settled m.wheels[w] (m.settleTime w))) w) (seatOfWheel w) := by
  simp only [takeCutFall, hm, if_pos ((cutOpen_iff m w).2 h)]
  rfl

/-- The state after the close of a cut at a falling edge. -/
def cutClosed (s m : State) (w : WheelNo) (r r' : ToolRecord) (time : Nat) : State :=
  { (((raiseIf (raiseIf m (NewEnd r r' ∧ r.state = .active) (seatOfWheel w) .spent)
      (r.warned = false ∧ r'.warned = true) (seatOfWheel w) .warn).putRecord r').setWheel w
      { s.wheels[w] with
        phase := if time = 0 then .idle else .settle
        phaseTimer := if time = 0 then none else some { count := 0, time := time }
        loss := none, overload := none, accumulator := 0, cutTimer := none }) with freeCount := s.freeCount + 1 }

section CutFall

variable {w : WheelNo} {s m : State} {r r' : ToolRecord} {g : GroupNo} {grp : Group}

/-- A falling edge closes an open cut and charges it, and the seat is told of a new end. -/
theorem takeCutFall_eq (hm : takeCutMark s w .falling = m) (hc : CutOpen s w) (hh : s.holder (seatOfWheel w) = some r)
    (hs : r.state = .active ∨ r.state = .suspect) (hg : s.seats[seatOfWheel w].group = some g)
    (hgs : s.groups[g] = some grp)
    (hr' : r' = chargedTo (s.marginOf r) (worn s.wheels[w].accumulator grp.params.nominalLoad r)) :
    takeCutFall w s = Machine.tell
      (cutClosed s m w r r' (m.settleTime w), decide (NewEnd r r' ∧ r.state = .active)) (seatOfWheel w) := by
  obtain ⟨l, hl⟩ := takeCutMark_eq s w .falling
  obtain rfl : m = { s with cutLines := l } := hm.symm.trans hl
  rw [takeCutFall_of_open hm hc]
  generalize State.settleTime _ w = time
  have hclose := closeCut_eq ({ s with cutLines := l, freeCount := s.freeCount + 1 }.setWheel w (settled s.wheels[w] time))
    w r r' g grp hh hs hg hgs (by rw [hr', setWheel_get]; rfl)
  refine congrArg (Machine.tell · _) (hclose.trans (Prod.ext ?_ rfl))
  have hput : ({ s with cutLines := l, freeCount := s.freeCount + 1 }.setWheel w (settled s.wheels[w] time)).putRecord r' =
      { ({ s with cutLines := l } : State).putRecord r' with freeCount := s.freeCount + 1 }.setWheel w
        (settled s.wheels[w] time) := rfl
  simp only [hput, setWheel_get, raiseIf_setWheel, setWheel_setWheel, raiseIf_freeCount, raiseIf_putRecord]
  rfl

theorem cutClosed_seats (hm : m.seats = s.seats) (time : Nat) : (cutClosed s m w r r' time).seats = s.seats := by
  change (raiseIf (raiseIf m _ _ _) _ _ _).seats = s.seats
  rw [raiseIf_seats, raiseIf_seats, hm]

theorem cutClosed_stations (hm : m.stations = s.stations) (time : Nat) :
    (cutClosed s m w r r' time).stations = s.stations := by
  change (raiseIf (raiseIf m _ _ _) _ _ _).stations = s.stations
  rw [raiseIf_stations, raiseIf_stations, hm]

end CutFall

/-- Settles O38: the close of the cut, and then the seat by its state and the part-open flag. -/
theorem cutFallingEdgeClosesTheCut : Obligations.CutFallingEdgeClosesTheCut := by
  intro w s g grp r r' q hn
  rw [exec_cutFallingEdge, whenRunning_eq hn]
  obtain ⟨l, hl⟩ := takeCutMark_eq s w .falling
  refine ⟨fun hc => ?_, fun hc hq hh hst hg hgs hr' => ?_⟩
  · have hclosed : ¬ (takeCutMark s w .falling).wheels[w].phase.cutOpen = true := by
      rw [hl]
      exact mt (cutOpen_iff s w).1 hc
    simp only [takeCutFall, if_neg hclosed]
  subst hq
  have htime : (takeCutMark s w .falling).settleTime w = 10 * grp.params.blankingTime
      ∨ (takeCutMark s w .falling).settleTime w = s.wheels[w].cutBlanking := by
    rw [hl, ← blankingTime_of (s := { s with cutLines := l }) hg hgs]
    exact settleTime_cases _ w
  rw [takeCutFall_eq rfl hc hh hst hg hgs hr']
  have hseats := cutClosed_seats (w := w) (r := r) (r' := r') (s := s) (m := takeCutMark s w .falling) (by rw [hl])
    ((takeCutMark s w .falling).settleTime w)
  have hstations := cutClosed_stations (w := w) (r := r) (r' := r') (s := s) (m := takeCutMark s w .falling) (by rw [hl])
    ((takeCutMark s w .falling).settleTime w)
  refine ⟨_, _, htime, rfl, fun hno => ?_, fun hn hr hq hp => ?_, fun hn hr hq hp => ?_⟩
  · by_cases hnew : NewEnd r r' ∧ r.state = .active
    · rw [tell_of_told (decide_eq_true hnew), toolEnded_of_not_running]
      · rfl
      · exact fun hq => hno ⟨hnew.1, hnew.2, (congrArg (·[seatOfWheel w].service) hseats).symm.trans hq⟩
    · rw [tell_of_not_told (decide_eq_false hnew)]
      rfl
  · rw [tell_of_told (decide_eq_true ⟨hn, hr⟩), toolEnded_of_part_open (by rw [hseats, hq]) (by rw [hstations, hp])]
    rfl
  · rw [tell_of_told (decide_eq_true ⟨hn, hr⟩), toolEnded_of_no_part (by rw [hseats, hq]) (by rw [hstations, hp])]
    rfl

end Sys2Proof.Proofs

/-! The tick (R33 to R36, R82, R135, R137, R148, R159) and the conversions (R118 to R121, R134, R148). O41, O43 and O46 from
these. -/

namespace Sys2Proof.Proofs

open Sys2Proof.Machine Sys2Proof.Safety Sys2Proof.Laws

/-! ### The events of the tick before -/

theorem settle_of_none {s : State} (h : dueEvents s = []) : settle s = s := by
  rw [settle, h]
  rfl

theorem settle_of_one {s : State} {e : Due} (h : dueEvents s = [e]) : settle s = takeDue s e := by
  rw [settle, h]
  simp only [List.length_singleton, settleLoop, h]

/-- A due event leaves the part out of reset. -/
theorem takeDue_nRST (s : State) (e : Due) : (takeDue s e).nRST = s.nRST := by
  obtain ⟨f, hf, he⟩ := takeDue_eq s e
  rw [he]
  change (f s).nRST = s.nRST
  generalize ht : f s = t
  cases ht ▸ event_stirs hf s with
  | control h => exact h.nRST
  | frame h => exact absurd h (rowOf_not_frame e)
  | conversion code h => cases e <;> cases h
  | expiry => rfl

theorem exec_rowOf {s : State} (hn : s.nRST = true) (e : Due) : exec (rowOf e) s = .next (takeDue s e) := by
  cases e <;> exact whenRunning_eq hn

/-- A tick that finds one event standing takes it first. -/
theorem tick_after_event {x : Samples} {s u : State} {e : Due} (hn : s.nRST = true) (hs : dueEvents s = [e])
    (hu : exec (rowOf e) s = .next u) (hnone : dueEvents u = []) : exec (.tick x) s = exec (.tick x) u := by
  rw [exec_rowOf hn] at hu
  obtain rfl := Host.Outcome.next.inj hu
  rw [exec_tick, exec_tick, settle_of_one hs, settle_of_none hnone, takeDue_nRST, if_pos hn, if_pos hn]

/-! ### What a tick counts -/

theorem tickBody_pins {x : Samples} {s : State} (hp : PinsDriven s) : (commit s (tickBody x s)).pins = s.pins := by
  have hlamp : lampLevel (tickBody x s) = lampLevel s := funext fun st => by
    have hstretch : (tickBody x s).stations[st].stretch.isSome = s.stations[st].stretch.isSome := by
      simp only [tickBody, tickStation, Fin.getElem_fin, Vector.getElem_ofFn, Option.isSome_map]
    rw [lampLevel, hstretch]
    rfl
  have hstations := startStretch_congr (s := s) (a := tickBody x s) rfl rfl
  calc (commit s (tickBody x s)).pins = drivenPins { tickBody x s with stations := startStretch s (tickBody x s) } := rfl
    _ = drivenPins (tickBody x s) := by rw [hstations]
    _ = drivenPins s := by
      rw [drivenPins, hlamp]
      rfl
    _ = s.pins := drivenPins_self hp

theorem commit_tickBody_stations (x : Samples) (s : State) (st : StationNo) :
    (commit s (tickBody x s)).stations[st] = tickStation s.stations[st] := by
  change (startStretch s (tickBody x s))[st] = _
  rw [startStretch_congr (s := s) (a := tickBody x s) rfl rfl]
  simp only [tickBody, Fin.getElem_fin, Vector.getElem_ofFn]

theorem effectiveFilter_eq (p : Params) : p.effectiveFilter = filterTime p := by
  unfold Params.effectiveFilter filterTime
  grind

theorem advanceFilter_eq (p : Params) : advanceFilter (some p.effectiveFilter) = countedTo (filterTime p) := by
  rw [effectiveFilter_eq]
  rfl

section Wheel

variable {s : State} {w : WheelNo} {g : GroupNo} {grp : Group} (hg : s.seats[seatOfWheel w].group = some g)
  (hgs : s.groups[g] = some grp)

include hg hgs

theorem addLoad_eq : addLoad s w = if s.wheels[w].phase = .cut then
      min 4294967295 (s.wheels[w].accumulator
        + if s.scan.fault then grp.params.nominalLoad else s.scan.channels[channelOf w].average)
    else s.wheels[w].accumulator := by
  rw [addLoad, wheelParams_of hg hgs]

theorem overtimeMet_iff (n : Nat) : overtimeMet s w n = true ↔
    InService s (seatOfWheel w) ∧ CutOpen s w ∧ grp.params.maxCutTime > 0 ∧ n ≥ 100 * grp.params.maxCutTime := by
  simp only [overtimeMet, wheelParams_of hg hgs, Bool.and_eq_true, decide_eq_true_eq, inService_iff, cutOpen_iff,
    and_assoc, gt_iff_lt, ge_iff_le]

theorem advanceCutTimer_eq (t : WatchTimer) : advanceCutTimer s w t =
    { count := min 6553500 (t.count + 1)
      fires := decide (InService s (seatOfWheel w) ∧ CutOpen s w ∧ grp.params.maxCutTime > 0
        ∧ min 6553500 (t.count + 1) ≥ 100 * grp.params.maxCutTime) } := by
  rw [advanceCutTimer]
  congr 1
  rw [Bool.eq_iff_iff, overtimeMet_iff hg hgs, decide_eq_true_iff]

theorem tickWheel_eq : tickWheel s w =
    { s.wheels[w] with
      accumulator := if s.wheels[w].phase = .cut then
          min 4294967295 (s.wheels[w].accumulator
            + if s.scan.fault then grp.params.nominalLoad else s.scan.channels[channelOf w].average)
        else s.wheels[w].accumulator
      phaseTimer := s.wheels[w].phaseTimer.map fun k => { k with count := k.count + 1 }
      loss := s.wheels[w].loss.map (countedTo (filterTime grp.params))
      overload := s.wheels[w].overload.map (countedTo (filterTime grp.params))
      contact := s.wheels[w].contact.map (countedTo (filterTime grp.params))
      cutTimer := s.wheels[w].cutTimer.map fun k =>
        { count := min 6553500 (k.count + 1)
          fires := decide (InService s (seatOfWheel w) ∧ CutOpen s w ∧ grp.params.maxCutTime > 0
            ∧ min 6553500 (k.count + 1) ≥ 100 * grp.params.maxCutTime) }
      check := s.wheels[w].check.map fun c => { c with count := c.count + 1 } } := by
  rw [tickWheel, addLoad_eq hg hgs, wheelParams_of hg hgs, Option.map_some, advanceFilter_eq,
    funext (advanceCutTimer_eq hg hgs)]

end Wheel

/-! ### What a tick samples -/

/-- The sampling of a line by what the last sample and the taken level say of the level. -/
theorem sample_taken {l : Line} {level : Bool} (hlast : l.last = some level) (htaken : l.taken ≠ some level) :
    l.sample level = { taken := some level, last := some level
                       edge := l.taken.map fun _ => if level then .rising else .falling } := by
  rw [Line.sample, if_pos ⟨hlast, htaken⟩]
  cases l.taken <;> rfl

theorem sample_still {l : Line} {level : Bool} (h : l.last ≠ some level ∨ l.taken = some level) :
    l.sample level = { taken := l.taken, last := some level, edge := none } := by
  rw [Line.sample, if_neg]
  rintro ⟨hlast, htaken⟩
  exact h.elim (fun h => h hlast) htaken

/-- Two ways of keeping the mark of a falling edge, over one way of sampling. -/
theorem sampled_of {l l' : Line} {level : Bool} {falling : Option Edge} (hlast : l'.last = (l.sample level).last)
    (htaken : l'.taken = (l.sample level).taken) (hnone : (l.sample level).edge = none → l'.edge = none)
    (hedge : ∀ v, l.taken = some v → (l.sample level).edge = some (if level then .rising else .falling) →
      l'.edge = if level then some .rising else falling) : Sampled falling l l' level := by
  by_cases h : l.last = some level ∧ l.taken ≠ some level
  · have hs := sample_taken h.1 h.2
    rw [hs] at hlast htaken hnone hedge
    refine ⟨hlast, fun _ ht => ⟨htaken, hnone (by rw [ht]; rfl)⟩, fun v _ ht _ => ⟨htaken, hedge v ht (by rw [ht]; rfl)⟩, ?_⟩
    exact fun hstill => absurd h (by rintro ⟨h1, h2⟩; exact hstill.elim (fun hn => hn h1) h2)
  · have hstill : l.last ≠ some level ∨ l.taken = some level := by
      rw [not_and_or, not_not] at h
      exact h
    have hs := sample_still hstill
    rw [hs] at hlast htaken hnone
    refine ⟨hlast, fun h1 h2 => ?_, fun v h1 h2 h3 => ?_, fun _ => ⟨htaken, hnone rfl⟩⟩
    · rw [h2] at hstill
      exact absurd h1 (hstill.resolve_right (Option.some_ne_none level).symm)
    · rw [h2] at hstill
      exact absurd h1 (hstill.resolve_right fun hv => h3 (Option.some.inj hv))

theorem sample_sampled (l : Line) (level : Bool) : Sampled (some .falling) l (l.sample level) level :=
  sampled_of rfl rfl id fun _ _ h => h.trans (by cases level <;> rfl)

/-- A falling edge of PEND leaves no mark (R83). -/
theorem samplePend_sampled (l : Line) (level : Bool) : Sampled none l (l.samplePend level) level := by
  have hline : l.samplePend level =
      { l.sample level with edge := if (l.sample level).edge = some .falling then none else (l.sample level).edge } := by
    rw [Line.samplePend]
    split <;> rfl
  rw [hline]
  refine sampled_of rfl rfl (fun h => ?_) fun v _ h => ?_
  · simp only [h, ite_self]
  · simp only [h]
    cases level <;> rfl

/-- Settles O41. -/
theorem tickCountsAndSamples : Obligations.TickCountsAndSamples := by
  refine ⟨fun x s u e => tick_after_event, fun x s hn hnone => ?_⟩
  have hexec : exec (.tick x) s = .next (commit s (tickBody x s)) := by
    rw [exec_tick, if_pos hn, settle_of_none hnone]
  refine ⟨_, hexec, rfl, rfl, rfl, rfl, rfl, tickBody_pins, rfl, rfl, rfl, fun st => ?_, fun w g grp hg hgs => ?_,
    fun w => ?_, fun st => ?_⟩
  · rw [commit_tickBody_stations]
    exact ⟨rfl, rfl⟩
  · change (Vector.ofFn (tickWheel s))[w] = _
    rw [Fin.getElem_fin, Vector.getElem_ofFn]
    exact tickWheel_eq hg hgs
  · change Sampled _ _ (Vector.ofFn fun w => s.cutLines[w].sample x.cut[w])[w] _
    rw [Fin.getElem_fin (Vector.ofFn _), Vector.getElem_ofFn]
    exact sample_sampled _ _
  · change Sampled _ _ (Vector.ofFn fun st => s.pendLines[st].samplePend x.pend[st])[st] _
    rw [Fin.getElem_fin (Vector.ofFn _), Vector.getElem_ofFn]
    exact samplePend_sampled _ _

end Sys2Proof.Proofs

/-! The end of a conversion (R118 to R121, R127) and the judgement of a published average (R134, R148). O43 and O46 from
these. -/

namespace Sys2Proof.Proofs

open Sys2Proof.Machine Sys2Proof.Safety Sys2Proof.Laws

/-! ### What a conversion leaves alone -/

/-- The tables are as they were. -/
structure KeepsTables (s t : State) : Prop where
  table  : t.table = s.table
  groups : t.groups = s.groups
  seats  : t.seats = s.seats

theorem KeepsTables.refl (s : State) : KeepsTables s s := ⟨rfl, rfl, rfl⟩

theorem KeepsTables.trans {s t u : State} (h₁ : KeepsTables s t) (h₂ : KeepsTables t u) : KeepsTables s u :=
  ⟨h₂.table.trans h₁.table, h₂.groups.trans h₁.groups, h₂.seats.trans h₁.seats⟩

/-- What no conversion touches. -/
structure KeepsLines (s t : State) : Prop where
  stations  : t.stations = s.stations
  cutLines  : t.cutLines = s.cutLines
  pendLines : t.pendLines = s.pendLines
  link      : t.link = s.link
  pending   : t.pending = s.pending
  nRST      : t.nRST = s.nRST

theorem KeepsLines.of_rest {s t : State} (h : KeepsRest s t) : KeepsLines s t :=
  ⟨h.stations, h.cutLines, h.pendLines, h.link, h.pending, h.nRST⟩

theorem stopFilters_keepsTables (s : State) (w : WheelNo) : KeepsTables s (stopFilters s w) := ⟨rfl, rfl, rfl⟩

theorem abortCheck_keepsTables (s : State) (w : WheelNo) : KeepsTables s (abortCheck s w) := by
  unfold abortCheck
  split <;> exact ⟨rfl, rfl, rfl⟩

theorem enterFault_keepsTables (s : State) : KeepsTables s (enterFault s) := by
  have hfold (l : List WheelNo) (u : State) :
      KeepsTables u (l.foldl (fun s w => abortCheck (stopFilters s w) w) u) := by
    induction l generalizing u with
    | nil => exact .refl u
    | cons w l ih => exact ((stopFilters_keepsTables u w).trans (abortCheck_keepsTables _ w)).trans (ih _)
  obtain ⟨htable, hgroups, hseats⟩ := hfold (List.finRange 8) (s.setScan { s.scan with run := 0, fault := true }).raiseSense
  exact ⟨htable, hgroups, hseats⟩

theorem monitor_keepsTables (s : State) (code : Nat) : KeepsTables s (monitor s code) := by
  unfold monitor
  split
  · split
    · split
      · exact ⟨rfl, rfl, rfl⟩
      · exact enterFault_keepsTables s
    · exact ⟨rfl, rfl, rfl⟩
  · exact ⟨rfl, rfl, rfl⟩

theorem monitor_keepsLines (s : State) (code : Nat) : KeepsLines s (monitor s code) := by
  unfold monitor
  split
  · split
    · split
      · exact ⟨rfl, rfl, rfl, rfl, rfl, rfl⟩
      · obtain ⟨h1, h2, h3, h4, h5, h6⟩ := KeepsLines.of_rest (enterFault_keepsRest s)
        exact ⟨h1, h2, h3, h4, h5, h6⟩
    · exact ⟨rfl, rfl, rfl, rfl, rfl, rfl⟩
  · exact ⟨rfl, rfl, rfl, rfl, rfl, rfl⟩

theorem supervise_keepsTables (s : State) (w : WheelNo) (a : Nat) : KeepsTables s (supervise s w a) := by
  unfold supervise
  split <;> exact ⟨rfl, rfl, rfl⟩

/-- A suspicion does nothing, or makes the ACTIVE holder SUSPECT and halts its seat. -/
theorem suspicion_cases (s : State) (w : WheelNo) (cause : BreakCause) : suspicion s w cause = s
    ∨ ∃ r, s.holder (seatOfWheel w) = some r ∧ r.state = .active ∧ suspicion s w cause =
      abortCheck (stopFilters (((s.putRecord { r with state := .suspect, cause := some cause }).setService (seatOfWheel w)
        .halted).raise (seatOfWheel w) .breakage) w) w := by
  by_cases h : ∃ r, s.holder (seatOfWheel w) = some r ∧ r.state = .active
  · obtain ⟨r, hh, hr⟩ := h
    exact .inr ⟨r, hh, hr, by simp only [suspicion, hh, if_pos hr]⟩
  · exact .inl (suspicion_of_not_active cause fun r hh hr => h ⟨r, hh, hr⟩)

theorem suspicion_groups (s : State) (w : WheelNo) (c : BreakCause) : (suspicion s w c).groups = s.groups := by
  obtain h | ⟨r, _, _, h⟩ := suspicion_cases s w c
  · rw [h]
  · rw [h, (abortCheck_keepsTables _ w).groups]
    rfl

theorem endCheck_groups (s : State) (w : WheelNo) (r : ProbeResult) : (endCheck s w r).groups = s.groups := by
  cases r
  case low | high => exact suspicion_groups _ w _
  case none | pass | noData | aborted => rfl

theorem probeTest_groups (s : State) (w : WheelNo) (a : Nat) : (probeTest s w a).groups = s.groups := by
  unfold probeTest
  split
  · split
    · exact endCheck_groups s w _
    · split
      · exact endCheck_groups s w _
      · rfl
  · rfl

theorem published_groups (s : State) (c : ChannelNo) : (published s c).groups = s.groups := by
  unfold published
  split
  · rw [probeTest_groups, (supervise_keepsTables _ _ _).groups]
  · rfl

section Conversion

variable (s : State) (code : Nat)

theorem convert_groups : (convert code s).groups = s.groups := by
  by_cases h8 : s.scan.pointer = 8
  · rw [convert_ref s _ h8, (monitor_keepsTables _ _).groups]
    rfl
  · rw [convert_load s _ h8]
    split
    · rw [published_groups]
      rfl
    · rfl

theorem convert_keepsRest (h8 : s.scan.pointer ≠ 8) : KeepsRest (scanned s code) (convert code s) := by
  rw [convert_load s _ h8]
  split; exacts [published_keepsRest _ _, .refl _]

theorem convert_keepsLines : KeepsLines s (convert code s) := by
  by_cases h8 : s.scan.pointer = 8
  · rw [convert_ref s _ h8]
    obtain ⟨h1, h2, h3, h4, h5, h6⟩ := monitor_keepsLines (scanned s code) code
    exact ⟨h1, h2, h3, h4, h5, h6⟩
  · obtain ⟨h1, h2, h3, h4, h5, h6⟩ := KeepsLines.of_rest (convert_keepsRest s code h8)
    exact ⟨h1, h2, h3, h4, h5, h6⟩

theorem takeCode_of_full {x : Channel} (h : x.held + 1 ≥ x.count) : x.takeCode code =
    ({ x with sum := 0, held := 0, fresh := true, average := (x.sum + code) / x.count }, true) := by
  rw [Channel.takeCode, if_pos h]

theorem takeCode_of_room {x : Channel} (h : x.held + 1 < x.count) : x.takeCode code =
    ({ x with sum := x.sum + code, held := x.held + 1 }, false) := by
  rw [Channel.takeCode, if_neg (Nat.not_le.2 h)]

theorem convert_of_room (h8 : s.scan.pointer ≠ 8)
    (h : s.scan.channels[s.scan.pointer].held + 1 < s.scan.channels[s.scan.pointer].count) :
    convert code s = scanned s code := by
  rw [convert_load s _ h8, takeCode_of_room code h, if_neg Bool.false_ne_true]

end Conversion

/-- Settles O43. -/
theorem conversionJoinsTheBlock : Obligations.ConversionJoinsTheBlock := by
  intro code s c hn hc
  subst hc
  obtain ⟨⟨run, fault, _, hscan⟩, _, _⟩ := convert_converts s code
  have hlines := convert_keepsLines s code.toNat
  have hself : (scanned s code.toNat).scan.channels[s.scan.pointer]
      = (s.scan.channels[s.scan.pointer].takeCode code.toNat).1 := set_get_self _ _ _
  have hpointer (h : s.scan.pointer.val ≠ 8) : s.scan.pointer ≠ 8 := fun h' => h (congrArg Fin.val h')
  refine ⟨commit s (convert code.toNat s), whenRunning_eq hn, ?pointer, fun d hd => ?others, fun h => ?room,
    fun h => ?full, convert_groups s _, ?partOpen, hlines.cutLines, hlines.pendLines, hlines.link, hlines.pending,
    hlines.nRST, fun h8 => ?run, fun h => ?tables, fun h8 h => ?wheels⟩
  case pointer =>
    change (convert code.toNat s).scan.pointer.val = _
    rw [hscan]
    rfl
  case others =>
    change (convert code.toNat s).scan.channels[d] = _
    rw [hscan]
    exact set_get_ne _ _ hd
  case room =>
    change (convert code.toNat s).scan.channels[s.scan.pointer] = _
    rw [hscan]
    exact hself.trans (congrArg Prod.fst (takeCode_of_room code.toNat h))
  case full =>
    change (convert code.toNat s).scan.channels[s.scan.pointer] = _
    rw [hscan]
    exact hself.trans (congrArg Prod.fst (takeCode_of_full code.toNat h))
  case partOpen =>
    refine Vector.ext fun i hi => ?_
    rw [Vector.getElem_map, Vector.getElem_map, ← hlines.stations]
    exact commit_partOpen s (convert code.toNat s) ⟨i, hi⟩
  case run =>
    change (convert code.toNat s).scan.run = _ ∧ (convert code.toNat s).scan.fault = _
    rw [(convert_keepsRest s code.toNat (hpointer h8)).scan]
    exact ⟨rfl, rfl⟩
  case tables =>
    change (convert code.toNat s).table = _ ∧ (convert code.toNat s).seats = _
    by_cases h8 : s.scan.pointer = 8
    · rw [convert_ref s _ h8, (monitor_keepsTables _ _).table, (monitor_keepsTables _ _).seats]
      exact ⟨rfl, rfl⟩
    · rw [convert_of_room s _ h8 (h.resolve_left fun h' => h8 (Fin.ext h'))]
      exact ⟨rfl, rfl⟩
  case wheels =>
    change (convert code.toNat s).wheels = _ ∧ (convert code.toNat s).notices = _
    rw [convert_of_room s _ (hpointer h8) h]
    exact ⟨rfl, rfl⟩

/-! ### A published average -/

section Published

variable {s : State} {w : WheelNo} {a : Nat}

theorem probeTest_of_none (h : s.wheels[w].check = none) : probeTest s w a = s := by
  simp only [probeTest, h]

theorem probeTest_of_inside {c : ProbeCheck} (h : s.wheels[w].check = some c) (hlo : c.lo ≤ a) (hhi : a ≤ c.hi) :
    probeTest s w a = s.setWheel w { s.wheels[w] with check := some { c with tested := true } } := by
  simp only [probeTest, h, if_neg (Nat.not_lt.2 hlo), if_neg (Nat.not_lt.2 hhi)]

/-- Outside its window the check ends LOW or HIGH, and a suspicion with the cause PROBE is raised. -/
theorem probeTest_of_outside {c : ProbeCheck} (h : s.wheels[w].check = some c) (hout : a < c.lo ∨ a > c.hi) :
    probeTest s w a = suspicion (finishCheck s w (if a < c.lo then .low else .high)) w .probe := by
  by_cases hlo : a < c.lo
  · simp only [probeTest, h, if_pos hlo, endCheck]
  · simp only [probeTest, h, if_neg hlo, if_pos (hout.resolve_left hlo), endCheck]

/-- A suspicion at a wheel seat without a check in flight, where the holder is ACTIVE. -/
theorem suspicion_of_no_check {r : ToolRecord} {cause : BreakCause} (hh : s.holder (seatOfWheel w) = some r)
    (hr : r.state = .active) (hc : s.wheels[w].check = none) : suspicion s w cause =
    (((s.putRecord { r with state := .suspect, cause := some cause }).setService (seatOfWheel w) .halted).raise
      (seatOfWheel w) .breakage).setWheel w { s.wheels[w] with loss := none, overload := none, contact := none } := by
  have h := suspicion_eq s w r cause s.wheels[w] hh hr rfl rfl rfl
  rw [setWheel_self] at h
  rw [h, suspected, raiseIf_neg _ _ _ (not_not.2 hc)]
  simp only [hc, if_true]

theorem abortCheck_wheels_ne {v : WheelNo} (hv : v ≠ w) : (abortCheck s w).wheels[v] = s.wheels[v] := by
  rw [abortCheck_eq, setWheel_get_ne _ _ hv, raiseIf_wheels]

theorem suspicion_wheels_ne (cause : BreakCause) {v : WheelNo} (hv : v ≠ w) :
    (suspicion s w cause).wheels[v] = s.wheels[v] := by
  obtain h | ⟨r, _, _, h⟩ := suspicion_cases s w cause
  · rw [h]
  · rw [h, abortCheck_wheels_ne hv, stopFilters, setWheel_get_ne _ _ hv]
    rfl

theorem probeTest_wheels_ne {v : WheelNo} (hv : v ≠ w) : (probeTest s w a).wheels[v] = s.wheels[v] := by
  cases hc : s.wheels[w].check with
  | none => rw [probeTest_of_none hc]
  | some c =>
    by_cases hin : c.lo ≤ a ∧ a ≤ c.hi
    · rw [probeTest_of_inside hc hin.1 hin.2, setWheel_get_ne _ _ hv]
    · rw [probeTest_of_outside hc (by omega), suspicion_wheels_ne _ hv]
      exact setWheel_get_ne s _ hv

theorem raise_flags_ne (q : SeatNo) (n : SeatNotice) {p : SeatNo} (hp : p ≠ q) :
    (s.raise q n).notices.seats[p] = s.notices.seats[p] := set_get_ne _ _ hp

theorem suspicion_flags_ne (cause : BreakCause) {p : SeatNo} (hp : p ≠ seatOfWheel w) :
    (suspicion s w cause).notices.seats[p] = s.notices.seats[p] := by
  obtain h | ⟨r, _, _, h⟩ := suspicion_cases s w cause
  · rw [h]
  · rw [h, abortCheck_eq]
    exact (raiseIf_flags_ne _ _ _ hp).trans (set_get_ne _ _ hp)

theorem finishCheck_wheel (r : ProbeResult) :
    (finishCheck s w r).wheels[w] = { s.wheels[w] with check := none, lastResult := r } := set_get_self _ _ _

end Published

/-- Settles O46: the filter timers as the average leaves them, and then the probe check by its window. -/
theorem publishedAverageIsJudged : Obligations.PublishedAverageIsJudged := by
  intro code s w g grp x hn hpointer hfull hx hg hgs
  have hconvert := convert_published s code.toNat w hpointer hfull
  rw [← hx, supervise_eq (s := scanned s code.toNat) x (wheelParams_of hg hgs)] at hconvert
  have hexec : exec (.conversionEnd code) s = .next (commit s (convert code.toNat s)) := whenRunning_eq hn
  generalize hu : (scanned s code.toNat).setWheel w (supervised (scanned s code.toNat) w grp.params x) = u at hconvert
  have hwheel : u.wheels[w] = supervised s w grp.params x := by
    rw [← hu]
    exact setWheel_get _ _ _
  have hwheels (v : WheelNo) (hv : v ≠ w) : u.wheels[v] = s.wheels[v] := by
    rw [← hu]
    exact setWheel_get_ne (scanned s code.toNat) _ hv
  have hcheck : u.wheels[w].check = s.wheels[w].check := by rw [hwheel]; rfl
  have htable : u.table = s.table := by rw [← hu]; rfl
  have hseats : u.seats = s.seats := by rw [← hu]; rfl
  have hnotices : u.notices = s.notices := by rw [← hu]; rfl
  refine ⟨_, hexec, ?_⟩
  rw [hconvert]
  refine ⟨fun v hv => (probeTest_wheels_ne hv).trans (hwheels v hv), fun hc => ?none, fun c hc hlo hhi => ?inside,
    fun c hc hout => ⟨?device, fun p hp => ?flags, fun r hh hr hfind => ?suspect, fun hno => ?kept⟩⟩
  case none =>
    rw [probeTest_of_none (hcheck.trans hc)]
    exact ⟨hwheel, htable, hseats, hnotices⟩
  case inside =>
    rw [probeTest_of_inside (hcheck.trans hc) hlo hhi, hwheel]
    exact ⟨set_get_self _ _ _, htable, hseats, hnotices⟩
  case device =>
    refine (probeTest_keepsRest u w x).device.trans ?_
    rw [hnotices]
  all_goals
    rw [probeTest_of_outside (hcheck.trans hc) hout]
    generalize (if x < c.lo then ProbeResult.low else .high) = result
  case flags =>
    refine (suspicion_flags_ne _ hp).trans ((set_get_ne _ _ hp).trans ?_)
    change u.notices.seats[p] = _
    rw [hnotices]
  case suspect =>
    have hholder : (finishCheck u w result).holder (seatOfWheel w) = some r :=
      (holder_congr_table (s := s) htable _).trans hh
    have hnone : (finishCheck u w result).wheels[w].check = none := by rw [finishCheck_wheel]
    obtain ⟨y, hy⟩ := Option.isSome_iff_exists.1 hfind
    rw [suspicion_of_no_check hholder hr hnone, finishCheck_wheel, hwheel]
    generalize hput : (finishCheck u w result).putRecord { r with state := .suspect, cause := some .probe } = v
    have hputTable : v.table = (s.putRecord { r with state := .suspect, cause := some .probe }).table := by
      rw [← hput, putRecord_table, putRecord_table]
      exact congrArg _ htable
    have hvseats : v.seats = s.seats := by
      rw [← hput]
      exact hseats
    have hvnotices : v.notices = (s.raise (seatOfWheel w) .check).notices := by
      rw [← hput, raise_notices, ← hnotices]
      rfl
    refine ⟨?_, ⟨fun m hm => ?_, ?_⟩, ?_, fun p hp => ?_, ?_, ?_⟩
    · exact (find_congr_table hputTable _).trans (find_putRecord_same hy)
    · exact (find_congr_table hputTable m).trans (find_putRecord_ne s (Ne.symm hm))
    · exact (congrArg (List.map (·.number)) hputTable).trans (numbers_putRecord s _)
    · refine (set_get_self _ _ _).trans ?_
      rw [hvseats]
    · refine (set_get_ne _ _ hp).trans ?_
      rw [hvseats]
    · refine (set_get_self _ _ _).trans ?_
      change v.notices.seats[seatOfWheel w].raise .breakage = _
      rw [hvnotices, raise_notices, set_get_self]
      rfl
    · exact (set_get_self _ _ _).trans rfl
  case kept =>
    have hholder (r : ToolRecord) (hh : (finishCheck u w result).holder (seatOfWheel w) = some r) : r.state ≠ .active :=
      hno r ((holder_congr_table (s := s) htable _).symm.trans hh)
    rw [suspicion_of_not_active _ hholder]
    refine ⟨htable, hseats, ?_, ?_⟩
    · change (u.raise (seatOfWheel w) .check).notices.seats[seatOfWheel w] = _
      rw [raise_notices, set_get_self, hnotices]
      rfl
    · change (finishCheck u w result).wheels[w] = _
      rw [finishCheck_wheel, hwheel]

end Sys2Proof.Proofs

/-! Grants (R70), the arbiter informed of a tool (R11), MOUNT of an alternative (R109) and SWAP (R113). O29, O30, O35 and
O36 from these. -/

namespace Sys2Proof.Proofs

open Sys2Proof.Machine Sys2Proof.Safety Sys2Proof.Laws

/-! ### Grants -/

/-- Records that are not AVAILABLE stand as they were. -/
def KeepsTaken (s t : State) : Prop := ∀ m r, s.find m = some r → r.state ≠ .available → t.find m = some r

theorem KeepsTaken.trans {s t u : State} (h₁ : KeepsTaken s t) (h₂ : KeepsTaken t u) : KeepsTaken s u :=
  fun m r hf hr => h₂ m r (h₁ m r hf hr) hr

theorem select_keepsTaken (s : State) (q : SeatNo) (e : Option Nat) : KeepsTaken s (select s q e) := by
  intro m r hf hr
  cases hq : s.seats[q].group with
  | none => rwa [select, hq]
  | some g =>
    cases hg : s.groups[g] with
    | none => simpa only [select, hq, hg] using hf
    | some grp =>
      cases hc : choose s g grp e with
      | none => rwa [select_of_none hq hg hc]
      | some p =>
        obtain ⟨x, hx, hxs, _⟩ := choose_find hc
        by_cases hm : m = p.2
        · rw [hm, hx] at hf
          exact absurd (Option.some.inj hf ▸ hxs) hr
        · rw [(select_tookMember hq hg hc).others.1 m hm, hf]

theorem setGroup_keepsTaken (s : State) (g : GroupNo) (x : Option Group) : KeepsTaken s (s.setGroup g x) :=
  fun _ _ hf _ => hf

/-- A group that no seat waits for, or without an eligible member, grants nothing. -/
theorem grantLoop_of_empty {s : State} {g : GroupNo} {grp : Group} (hg : s.groups[g] = some grp) (hq : grp.queue = [])
    (fuel : Nat) : grantLoop fuel s g = s := by
  cases fuel with
  | zero => rfl
  | succ fuel => simp only [grantLoop, hg, hq]

theorem grantLoop_of_none {s : State} {g : GroupNo} (h : s.hasEligible g = false) (fuel : Nat) :
    grantLoop fuel s g = s := by
  cases fuel with
  | zero => rfl
  | succ fuel =>
    cases hg : s.groups[g] with
    | none => simp only [grantLoop, hg]
    | some grp => cases hq : grp.queue <;> simp only [grantLoop, hg, hq, h, Bool.false_eq_true, if_false]

theorem grantLoop_of_head {s : State} {g : GroupNo} {grp : Group} {q : SeatNo} {rest : List SeatNo}
    (hg : s.groups[g] = some grp) (hq : grp.queue = q :: rest) (h : s.hasEligible g = true) (fuel : Nat) :
    grantLoop (fuel + 1) s g = grantLoop fuel (select (s.setGroup g (some { grp with queue := rest })) q none) g := by
  simp only [grantLoop, hg, hq, h, if_true]

theorem grantLoop_keepsTaken (fuel : Nat) (s : State) (g : GroupNo) : KeepsTaken s (grantLoop fuel s g) := by
  induction fuel generalizing s with
  | zero => exact fun _ _ hf _ => hf
  | succ fuel ih =>
    cases h : s.hasEligible g with
    | false =>
      rw [grantLoop_of_none h]
      exact fun _ _ hf _ => hf
    | true =>
      cases hg : s.groups[g] with
      | none =>
        simp only [grantLoop, hg]
        exact fun _ _ hf _ => hf
      | some grp =>
        cases hq : grp.queue with
        | nil =>
          rw [grantLoop_of_empty hg hq]
          exact fun _ _ hf _ => hf
        | cons q rest =>
          rw [grantLoop_of_head hg hq h]
          exact ((setGroup_keepsTaken s g _).trans (select_keepsTaken _ q none)).trans (ih _)

theorem hasEligible_false {s : State} {g : GroupNo} {grp : Group} (hg : s.groups[g] = some grp)
    (h : s.hasEligible g = false) : ∀ n ∈ grp.members, s.eligible g n = false := by
  intro n hn
  rw [← Bool.not_eq_true] at h ⊢
  exact fun he => h ((hasEligible_iff s g grp hg).2 ⟨n, hn, he⟩)

/-- The head of the queue is served: an eligible member is taken for it. -/
theorem select_served {s : State} {g : GroupNo} {grp : Group} {q : SeatNo} (hg : s.groups[g] = some grp)
    (hq : s.seats[q].group = some g) (h : s.hasEligible g = true) (rest : List SeatNo) :
    ∃ i n r, choose (s.setGroup g (some { grp with queue := rest })) g { grp with queue := rest } none = some (i, n)
      ∧ s.find n = some r ∧ r.group = some g
      ∧ TookMember (s.setGroup g (some { grp with queue := rest }))
          (select (s.setGroup g (some { grp with queue := rest })) q none) q g { grp with queue := rest } i n := by
  obtain ⟨m, hm, he⟩ := (hasEligible_iff s g grp hg).1 h
  obtain ⟨i, n, hc⟩ := choose_some (s.setGroup g (some { grp with queue := rest })) g { grp with queue := rest } none m hm
    he (Option.some_ne_none m).symm
  obtain ⟨r, hf, _, hr, _⟩ := choose_find hc
  exact ⟨i, n, r, hc, hf, hr, select_tookMember (s := s.setGroup g _) hq (set_get_self _ _ _) hc⟩

/-- The seats served by the grants of a group: their number, and what each of them is left with. -/
structure Served (s t : State) (g : GroupNo) (grp : Group) (k : Nat) : Prop where
  queue  : ∃ grp', t.groups[g] = some grp' ∧ grp'.queue = grp.queue.drop k
    ∧ (grp'.queue = [] ∨ ∀ n ∈ grp'.members, t.eligible g n = false)
  taken  : ∀ q ∈ grp.queue.take k, t.seats[q].service = .changing ∧ t.notices.seats[q].change = true
    ∧ ∃ r ∈ t.table, r.seat = some q ∧ r.state = .chosen ∧ r.group = some g
  others : ∀ q, q ∉ grp.queue.take k → t.seats[q] = s.seats[q]

theorem served_none {s : State} {g : GroupNo} {grp : Group} (hg : s.groups[g] = some grp)
    (h : grp.queue = [] ∨ ∀ n ∈ grp.members, s.eligible g n = false) : Served s s g grp 0 :=
  ⟨⟨grp, hg, rfl, h⟩, fun _ hq => absurd hq List.not_mem_nil, fun _ _ => rfl⟩

theorem grantLoop_serves {s : State} {g : GroupNo} {grp : Group} (hg : s.groups[g] = some grp)
    (hq : ∀ q ∈ grp.queue, s.seats[q].group = some g) : ∃ k, Served s (grantLoop grp.queue.length s g) g grp k := by
  generalize hl : grp.queue = queue at hq
  induction queue generalizing s grp with
  | nil => exact ⟨0, served_none hg (.inl hl)⟩
  | cons q rest ih =>
    cases h : s.hasEligible g with
    | false =>
      rw [grantLoop_of_none h]
      exact ⟨0, served_none hg (.inr (hasEligible_false hg h))⟩
    | true =>
      obtain ⟨i, n, r, _, hf, hr, htook⟩ := select_served hg (hq q List.mem_cons_self) h rest
      rw [List.length_cons, grantLoop_of_head hg hl h]
      generalize select (s.setGroup g (some { grp with queue := rest })) q none = u at htook
      obtain ⟨⟨x, hx, hxu⟩, _, hseats, hgroups, hrest⟩ := htook
      obtain rfl : x = r := Option.some.inj (hx.symm.trans hf)
      have hug : u.groups[g] = some { grp with
          queue := rest, cursor := if grp.params.policy = .rotate then some i else grp.cursor } := by
        rw [hgroups, set_get_self]
      have huq : u.seats[q] = { service := .changing, group := some g } := by
        rw [hseats]
        exact set_get_self _ _ _
      have hune (p : SeatNo) (hp : p ≠ q) : u.seats[p] = s.seats[p] := by
        rw [hseats]
        exact set_get_ne _ _ hp
      obtain ⟨k, ⟨grp', hg', hqueue, hend⟩, htaken, hothers⟩ := ih hug rfl fun p hp => by
        by_cases h : p = q
        · rw [h, huq]
        · rw [hune p h]
          exact hq p (List.mem_cons_of_mem q hp)
      refine ⟨k + 1, ⟨grp', hg', by rw [hqueue, hl, List.drop_succ_cons], hend⟩, fun p hp => ?_, fun p hp => ?_⟩
      · rw [hl, List.take_succ_cons, List.mem_cons] at hp
        by_cases hpk : p ∈ rest.take k
        · exact htaken p hpk
        obtain rfl := hp.resolve_right hpk
        refine ⟨by rw [hothers p hpk, huq], ?_, ?_⟩
        · refine ((grantLoop_keepsRest rest.length u g).flags.1 p).2.2.1 ?_
          rw [hrest]
          change ((s.setGroup g _).raise p .change).notices.seats[p].change = true
          rw [raise_notices, set_get_self]
          rfl
        · exact ⟨_, find_mem (grantLoop_keepsTaken rest.length u g n _ hxu (by simp)), rfl, rfl, hr⟩
      · rw [hl, List.take_succ_cons, List.mem_cons, not_or] at hp
        rw [hothers p hp.2, hune p hp.1]

/-- Settles O29. -/
theorem grantsServeTheQueue : Obligations.GrantsServeTheQueue := by
  intro s g grp _ hg hq
  obtain ⟨k, ⟨grp', hg', hqueue, hend⟩, htaken, hothers⟩ := grantLoop_serves hg hq
  have hgrant : grant s g = grantLoop grp.queue.length s g := by simp only [grant, hg]
  rw [hgrant]
  exact ⟨k, grp', hg', hqueue, hend, htaken, hothers⟩

/-! ### The arbiter informed of a tool -/

theorem inform_of_eligible {u : State} {g : GroupNo} {r : ToolRecord} (hf : u.find r.number = some r)
    (hg : r.group = some g) (ha : r.state = .available) (he : ¬ HasEnd r) : inform u r.number = grant u g := by
  simp only [inform, hf, hg, (eligibleIn_iff r g).2 ⟨ha, hg, he⟩, if_true]

theorem eligible_congr {s t : State} {n : Nat} (g : GroupNo) (h : t.find n = s.find n) : t.eligible g n = s.eligible g n := by
  rw [State.eligible, State.eligible, h]

/-- Settles O30. -/
theorem eligibleToolServesTheHead : Obligations.EligibleToolServesTheHead := by
  intro u g grp r hf hg hgrp
  refine ⟨?_, fun q rest ha he hmem hqueue hq honly => ?_⟩
  · rintro (h | h | h)
    · exact inform_unasked hf hg hgrp h
    · exact inform_idle hf (.inl h)
    · exact inform_idle hf (.inr h)
  have hself : u.eligible g r.number = true := (eligible_iff u g r.number).2 ⟨r, hf, ha, hg, he⟩
  have hsome : u.hasEligible g = true := (hasEligible_iff u g grp hgrp).2 ⟨r.number, hmem, hself⟩
  obtain ⟨i, n, x, hc, hx, _, htook⟩ := select_served hgrp hq hsome rest
  have hn : n = r.number := by
    by_contra hne
    have hfit := honly n (choose_member hc).1 hne
    rw [(eligible_iff u g n).2 (choose_fits hc).1.1] at hfit
    cases hfit
  subst hn
  have hinform : inform u r.number = select (u.setGroup g (some { grp with queue := rest })) q none := by
    rw [inform_of_eligible hf hg ha he]
    simp only [grant, hgrp, hqueue, List.length_cons]
    rw [grantLoop_of_head hgrp hqueue hsome]
    refine grantLoop_of_none ?_ _
    rw [← Bool.not_eq_true, hasEligible_iff _ g _ (by rw [htook.groups, set_get_self])]
    rintro ⟨m, hm, hme⟩
    by_cases hmr : m = r.number
    · obtain ⟨y, _, hy⟩ := htook.record
      obtain ⟨z, hz, hza, _⟩ := (eligible_iff _ g m).1 hme
      rw [hmr, hy] at hz
      rw [← Option.some.inj hz] at hza
      cases hza
    · rw [eligible_congr g (htook.others.1 m hmr)] at hme
      exact Bool.noConfusion ((honly m hm hmr).symm.trans hme)
  rw [hinform]
  obtain ⟨⟨y, hy, hyt⟩, hothers, hseats, hgroups, hrest⟩ := htook
  obtain rfl : y = r := Option.some.inj (hy.symm.trans hf)
  refine ⟨hyt, hothers, hseats, ⟨if grp.params.policy = .rotate then some i else grp.cursor, hgroups.trans ?_⟩, ?_, ?_⟩
  · rw [setGroup_groups, Vector.set_set]
  · rw [hrest]
    rfl
  · rw [hrest]
    rfl

/-! ### MOUNT of an alternative -/

section Alternative

variable {s : State} {q : SeatNo} {g : GroupNo} {grp : Group} {r d : ToolRecord}

theorem mountCommand_of_alternative {seat : Byte} {tool : Half} (hq : seat.toNat = q.val) (h0 : tool ≠ 0)
    (h1 : tool ≠ 0xFFFF) (hs : s.seats[q].service = .changing) (hg : s.seats[q].group = some g)
    (hf : s.find tool.toNat = some r) (ha : r.state = .available) (hr : r.group = some g) (he : ¬ HasEnd r) :
    mountCommand seat tool s = (mountAlternative s q g r, done) := by
  have hnot : ¬ (r.state = .chosen ∧ r.seat = some q) := by
    rw [ha]
    exact fun h => RecState.noConfusion h.1
  simp only [mountCommand, seatArg_of_toNat hq, toolArg_ne h0 h1, hs, hf, hg, if_neg hnot,
    (eligibleIn_iff r g).2 ⟨ha, hr, he⟩, ne_eq, not_true_eq_false, if_false, if_true, reply_done]

theorem cursorTo_eq (hgs : s.groups[g] = some grp) (n : Nat) : cursorTo s g n =
    s.setGroup g (some (if grp.params.policy = .rotate then { grp with cursor := some (grp.members.idxOf n) } else grp)) := by
  simp only [cursorTo, hgs, moveCursor_eq]
  split <;> rfl

/-- The tables when the member is ACTIVE, the cursor moved and the displaced record AVAILABLE. -/
def alternated (s : State) (q : SeatNo) (g : GroupNo) (grp : Group) (r d : ToolRecord) : State :=
  ((s.putRecord { r with state := .active, seat := some q }).setGroup g
      (some (if grp.params.policy = .rotate then { grp with cursor := some (grp.members.idxOf r.number) } else grp))).putRecord
    { d with state := .available, seat := none }

theorem find_alternated_displaced (hd : s.find d.number = some d) (hne : d.number ≠ r.number) :
    (alternated s q g grp r d).find d.number = some { d with state := .available, seat := none } :=
  find_putRecord_same (s := (s.putRecord { r with state := .active, seat := some q }).setGroup g _)
    (r := { d with state := .available, seat := none })
    ((find_putRecord_ne s (r := { r with state := .active, seat := some q }) hne.symm).trans hd)

theorem find_alternated_mounted (hr : s.find r.number = some r) (hne : d.number ≠ r.number) :
    (alternated s q g grp r d).find r.number = some { r with state := .active, seat := some q } :=
  (find_putRecord_ne ((s.putRecord { r with state := .active, seat := some q }).setGroup g _)
    (r := { d with state := .available, seat := none }) hne).trans
    (find_putRecord_same (r := { r with state := .active, seat := some q }) hr)

theorem find_alternated_other {n : Nat} (hr : n ≠ r.number) (hd : n ≠ d.number) :
    (alternated s q g grp r d).find n = s.find n :=
  (find_putRecord_ne ((s.putRecord { r with state := .active, seat := some q }).setGroup g _)
    (r := { d with state := .available, seat := none }) (Ne.symm hd)).trans
    (find_putRecord_ne s (r := { r with state := .active, seat := some q }) (Ne.symm hr))

/-- With no seat waiting, MOUNT of an alternative puts the seat in service with the tables so written. -/
theorem mountAlternative_eq (hgs : s.groups[g] = some grp) (hqueue : grp.queue = []) (hh : s.holder q = some d)
    (hd : s.find d.number = some d) (hne : d.number ≠ r.number) (hds : d.state = .chosen) (hdg : d.group = some g) (hde : ¬ HasEnd d) :
    mountAlternative s q g r =
      raiseIf (enterService (alternated s q g grp r d) q) (r.warned = true) q .warn := by
  have hreturn : returnRecord (cursorTo (s.putRecord { r with state := .active, seat := some q }) g r.number) d =
      alternated s q g grp r d := by
    rw [cursorTo_eq (s := s.putRecord _) hgs, returnRecord_of (.inr hds), if_neg hde]
    refine inform_unasked (s := alternated s q g grp r d) (r := { d with state := .available, seat := none })
      (find_alternated_displaced hd hne) hdg (set_get_self _ _ _) ?_
    split <;> exact hqueue
  simp only [mountAlternative, hh, hreturn]
  rfl

end Alternative

theorem enterService_keeps (s : State) (q : SeatNo) : (enterService s q).table = s.table
    ∧ (enterService s q).groups = s.groups ∧ (enterService s q).notices = s.notices
    ∧ (enterService s q).seats = (s.setService q .running).seats := by
  unfold enterService
  split <;> exact ⟨rfl, rfl, rfl, rfl⟩

/-- Settles O35. -/
theorem mountOfAnAlternative : Obligations.MountOfAnAlternative := by
  intro seat tool s q g grp r d h hordered hq h0 h1 hs hg hgs hqueue hf ha hr he hh hds hdg hde
  have hcmd := mountCommand_of_alternative hq h0 h1 hs hg hf ha hr he
  have hfr : s.find r.number = some r := find_of_mem hordered (find_mem hf)
  have hfd : s.find d.number = some d := find_of_mem hordered (holder_mem hh)
  have hne : d.number ≠ r.number := by
    intro heq
    rw [heq, hfr] at hfd
    rw [Option.some.inj hfd, hds] at ha
    cases ha
  have hexec := completesAs_of h (exec_mount s seat tool) hcmd
  have hback := answer_background (mountAlternative_keepsRest s q g r) done
  rw [mountAlternative_eq hgs hqueue hh hfd hne hds hdg hde] at hexec hback
  obtain ⟨htable, hgroups, hnotices, hseats⟩ := enterService_keeps (alternated s q g grp r d) q
  generalize hu : raiseIf (enterService (alternated s q g grp r d) q) (r.warned = true) q .warn = u at hexec hback
  have hutable : u.table = (alternated s q g grp r d).table := by rw [← hu, raiseIf_table, htable]
  have hwheels : u.wheels = (enterService (alternated s q g grp r d) q).wheels := by rw [← hu, raiseIf_wheels]
  refine ⟨_, hexec, stored_answer _ _ _, hback, ?_, ?_, fun n hnr hnd => ?_, ?_, ?_, fun w hw => ?_, fun hdress => ?_, ?_⟩
  · exact (find_congr_table hutable _).trans (find_alternated_mounted hfr hne)
  · exact (find_congr_table hutable _).trans (find_alternated_displaced hfd hne)
  · exact (find_congr_table hutable _).trans (find_alternated_other hnr hnd)
  · change u.seats = _
    rw [← hu, raiseIf_seats, hseats]
    exact setService_seats_of_bound .running hg
  · change u.groups = _
    rw [← hu, raiseIf_groups, hgroups]
    rfl
  · change u.wheels = _
    rw [hwheels, hw, enterService_of_wheel]
    rfl
  · change u.wheels = _
    rw [hwheels, enterService_of_dresser _ hdress]
    rfl
  · change u.notices = _
    rw [← hu, raiseIf, raiseIf]
    split
    · rw [raise_notices, raise_notices, hnotices]
      rfl
    · rw [hnotices]
      rfl

/-! ### SWAP -/

/-- Settles O36. -/
theorem swapSelectsASister : Obligations.SwapSelectsASister := by
  intro seat s q g grp r m h hordered hq hs hcut hg hgs hqueue hh hst hrg hm he
  have hfr : s.find r.number = some r := find_of_mem hordered (holder_mem hh)
  generalize hu : (leaveService s q).putRecord
    { r with state := if HasEnd r then .spent else .available, seat := none } = u
  have htable := leaveService_table s q hcut
  have hugroups : u.groups = s.groups := by rw [← hu, putRecord_groups, leaveService_groups]
  have hfu : u.find r.number = some { r with state := if HasEnd r then .spent else .available, seat := none } := by
    rw [← hu]
    exact find_putRecord_same (r := { r with state := if HasEnd r then .spent else .available, seat := none })
      ((find_congr_table htable _).trans hfr)
  have hmr : r.number ≠ m := by
    rintro rfl
    obtain ⟨x, hx, hxa, _⟩ := (eligible_iff s g r.number).1 he
    rw [hfr] at hx
    rw [← Option.some.inj hx, hst] at hxa
    cases hxa
  have hme : u.eligible g m = true := by
    rw [← he]
    refine eligible_congr g ?_
    rw [← hu]
    exact (find_putRecord_ne (leaveService s q)
      (r := { r with state := if HasEnd r then .spent else .available, seat := none }) hmr).trans
      (find_congr_table htable m)
  obtain ⟨i, n, hc⟩ := choose_some u g grp (some r.number) m hm hme fun heq => hmr (Option.some.inj heq)
  refine ⟨u, i, n, rfl, hc, fun heq => (choose_fits hc).1.2 (congrArg some heq.symm), ?_⟩
  have hswap : swapSeat s q = select u q (some r.number) := by
    have hreturn : returnRecord (leaveService s q) r = u := by
      rw [returnRecord_of (.inl hst), hu]
      exact inform_unasked (r := { r with state := if HasEnd r then .spent else .available, seat := none }) hfu hrg
        (by rw [hugroups, hgs]) hqueue
    simp only [swapSeat, holder_congr_table htable, hh, hreturn]
  have hnocut : ¬ ∃ w, q = seatOfWheel w ∧ CutOpen s w := by
    rw [← cutOpenAt_iff, hcut]
    exact Bool.false_ne_true
  have hsister : s.seatHasSister q = true := (seatHasSister_iff s q).2 ⟨g, grp, hg, hgs, m, hm, he⟩
  refine completesAs_of h (exec_swap s seat) ?_
  rw [swapCommand_of_seat hq, if_neg (not_not.2 hs), if_neg hnocut, if_neg (not_not.2 hsister), hswap, reply_done]

end Sys2Proof.Proofs

/-! Every record stays sound (R2 to R5, R7, R9, R26), first through each write of a record, then through the operations that
the commands and events share, the commands, and the events; and O22 from these. -/

namespace Sys2Proof.Proofs

open Sys2Proof.Machine Sys2Proof.Safety Sys2Proof.Laws

/-! ### Writes of a record -/

section Record

variable {r : ToolRecord}

/-- A record with another state, seat and cause is sound where they agree and no measure speaks against the state. -/
theorem recordSound_moved (h : RecordSound r) {v : RecState} {x : Option SeatNo} {c : Option BreakCause}
    (hseat : x.isSome = true ↔ v = .chosen ∨ v = .active ∨ v = .suspect)
    (hcause : c.isSome = true ↔ v = .suspect ∨ v = .broken)
    (hend : v = .available ∨ v = .chosen → r.ended.isEmpty = true) :
    RecordSound { r with state := v, seat := x, cause := c } :=
  ⟨h.number, h.parts, h.wear, h.dress, h.stock, h.ended, hseat, hcause, hend⟩

theorem recordSound_regrouped (h : RecordSound r) (g : Option GroupNo) (carry : Nat) (warned : Bool) :
    RecordSound { r with group := g, wearCarry := carry, warned := warned } :=
  ⟨h.number, h.parts, h.wear, h.dress, h.stock, h.ended, h.seat, h.cause, h.unended⟩

theorem recordSound_no_cause (h : RecordSound r) (hs : r.state ≠ .suspect) (hb : r.state ≠ .broken) : r.cause = none := by
  rw [← Option.not_isSome_iff_eq_none, h.cause]
  exact fun hc => hc.elim hs hb

theorem recordSound_no_seat (h : RecordSound r) (hs : r.state.atSeat = false) : r.seat = none := by
  rw [← Option.not_isSome_iff_eq_none, h.seat]
  rintro (hc | hc | hc) <;> rw [hc] at hs <;> cases hs

/-- A record that is neither SUSPECT nor BROKEN, moved to such a state off its seat. -/
theorem recordSound_unseated (h : RecordSound r) {v : RecState} (hs : r.state ≠ .suspect) (hb : r.state ≠ .broken)
    (hv : v = .available ∨ v = .held ∨ v = .spent) (hend : v = .available → r.ended.isEmpty = true) :
    RecordSound { r with state := v, seat := none } := by
  have hcause := recordSound_no_cause h hs hb
  refine recordSound_moved h (x := none) ?_ (c := r.cause) ?_ ?_ <;> obtain rfl | rfl | rfl := hv <;> simp [hcause, hend]

/-- The tool number, the measures and the limits of a record are in their ranges. -/
structure InRange (r : ToolRecord) : Prop where
  number : 1 ≤ r.number ∧ r.number ≤ 65534
  parts  : r.partsUsed ≤ 16777215 ∧ r.partsLimit.getD 0 ≤ 16777215
  wear   : r.wearUsed ≤ 16777215 ∧ r.wearLimit.getD 0 ≤ 16777215
  dress  : r.dressUsed ≤ 65535 ∧ r.dressLimit.getD 0 ≤ 65535
  stock  : r.stockNow ≤ r.stockStart ∧ r.stockStart ≤ 65535 ∧ r.stockFloor.getD 0 ≤ 65535

theorem recordSound_inRange (h : RecordSound r) : InRange r := ⟨h.number, h.parts, h.wear, h.dress, h.stock⟩

/-- A record in its ranges is sound once its ended set is recomputed, if its seat, its cause and its state agree. -/
theorem recordSound_recomputed (h : InRange r) (how : RecomputeBy) (margin : Option Nat)
    (hseat : r.seat.isSome = true ↔ r.state = .chosen ∨ r.state = .active ∨ r.state = .suspect)
    (hcause : r.cause.isSome = true ↔ r.state = .suspect ∨ r.state = .broken)
    (hend : r.state = .available ∨ r.state = .chosen → (endedOf r).isEmpty = true) :
    RecordSound (recompute how margin r) :=
  ⟨h.number, h.parts, h.wear, h.dress, h.stock, rfl, hseat, hcause, hend⟩

theorem mounted_not_selectable (hm : r.state.mounted = true) : ¬ (r.state = .available ∨ r.state = .chosen) := by
  rintro (h | h) <;> rw [h] at hm <;> cases hm

theorem recordSound_worn (h : RecordSound r) (hm : r.state.mounted = true) (how : RecomputeBy) (margin : Option Nat)
    (total nominal : Nat) : RecordSound (recompute how margin (chargeWear total nominal r)) :=
  recordSound_recomputed (r := chargeWear total nominal r) ⟨h.number, h.parts, ⟨Nat.min_le_left _ _, h.wear.2⟩, h.dress, h.stock⟩ how margin h.seat h.cause
    fun hs => absurd hs (mounted_not_selectable hm)

theorem recordSound_counted (h : RecordSound r) (hm : r.state.mounted = true) (how : RecomputeBy) (margin : Option Nat) :
    RecordSound (recompute how margin (chargePart r)) :=
  recordSound_recomputed (r := chargePart r) ⟨h.number, ⟨Nat.min_le_left _ _, h.parts.2⟩, h.wear, h.dress, h.stock⟩ how margin h.seat h.cause
    fun hs => absurd hs (mounted_not_selectable hm)

theorem recordSound_dressed (h : RecordSound r) (hm : r.state.mounted = true) (how : RecomputeBy) (margin : Option Nat)
    (stock : Nat) : RecordSound (recompute how margin (chargeDress stock r)) :=
  recordSound_recomputed (r := chargeDress stock r) ⟨h.number, h.parts, h.wear, ⟨Nat.min_le_left _ _, h.dress.2⟩,
    (Nat.sub_le _ _).trans h.stock.1, h.stock.2⟩ how margin h.seat h.cause fun hs => absurd hs (mounted_not_selectable hm)

end Record

/-! ### The operations -/

/-- Every record of the table is sound. -/
def RecordsSound (s : State) : Prop := ∀ r ∈ s.table, RecordSound r

section Operations

variable {s : State}

theorem RecordsSound.congr {t : State} (h : RecordsSound s) (ht : t.table = s.table) : RecordsSound t := by
  rw [RecordsSound, ht]
  exact h

theorem RecordsSound.put (h : RecordsSound s) {r : ToolRecord} (hr : RecordSound r) : RecordsSound (s.putRecord r) :=
  fun _ hx => (mem_putRecord hx).elim (fun hx => hx ▸ hr) (h _)

theorem RecordsSound.mountedAt (h : RecordsSound s) {q : SeatNo} {r : ToolRecord} (hr : s.mountedAt q = some r) :
    RecordSound r ∧ r.state.mounted = true := by
  obtain ⟨hh, hm⟩ := mountedAt_eq_some.1 hr
  exact ⟨h r (holder_mem hh), hm⟩

theorem RecordsSound.measureWrite (h : RecordsSound s) {how : RecomputeBy} {old new : ToolRecord}
    (hr : RecordSound (recompute how (s.marginOf old) new)) : RecordsSound (Machine.measureWrite s how old new).1 := by
  obtain ⟨_, _, _, htable⟩ := measureWrite_fields s how old new
  exact (h.put hr).congr htable

theorem RecordsSound.closeCut (h : RecordsSound s) (w : WheelNo) : RecordsSound (Machine.closeCut s w).1 := by
  have hwheel : RecordsSound (s.setWheel w { s.wheels[w] with accumulator := 0, cutTimer := none }) := h
  unfold Machine.closeCut
  simp only
  split
  · next r p hr hp =>
    obtain ⟨hsound, hm⟩ := hwheel.mountedAt hr
    exact hwheel.measureWrite (recordSound_worn hsound hm _ _ _ _)
  · exact hwheel

theorem RecordsSound.select (h : RecordsSound s) (q : SeatNo) (e : Option Nat) : RecordsSound (Machine.select s q e) := by
  cases hq : s.seats[q].group with
  | none => simpa only [Machine.select, hq] using h
  | some g =>
    cases hg : s.groups[g] with
    | none => simpa only [Machine.select, hq, hg] using h
    | some grp =>
      cases hc : choose s g grp e with
      | none =>
        rw [select_of_none hq hg hc]
        exact h
      | some p =>
        obtain ⟨r, hf, ha, _, he⟩ := choose_find hc
        have hr := h r (find_mem hf)
        rw [select_of_some hq hg hc hf]
        refine (h.put (recordSound_moved hr (v := .chosen) (x := some q) (c := r.cause) (by simp) ?_ fun _ => ?_)).congr rfl
        · simp [recordSound_no_cause hr (by rw [ha]; decide) (by rw [ha]; decide)]
        · exact (ended_isEmpty_iff r).2 he

theorem RecordsSound.grantLoop (h : RecordsSound s) (fuel : Nat) (g : GroupNo) :
    RecordsSound (Machine.grantLoop fuel s g) := by
  induction fuel generalizing s with
  | zero => exact h
  | succ fuel ih =>
    unfold Machine.grantLoop
    split
    · split
      · split
        · exact ih (RecordsSound.select (s := s.setGroup g _) h _ none)
        · exact h
      · exact h
    · exact h

theorem RecordsSound.grant (h : RecordsSound s) (g : GroupNo) : RecordsSound (Machine.grant s g) := by
  unfold Machine.grant
  split; exacts [h.grantLoop _ g, h]

theorem RecordsSound.inform (h : RecordsSound s) (n : Nat) : RecordsSound (Machine.inform s n) := by
  unfold Machine.inform
  split
  · split
    · split; exacts [h.grant _, h]
    · exact h
  · exact h

theorem RecordsSound.returnRecord (h : RecordsSound s) {r : ToolRecord} (hr : RecordSound r) :
    RecordsSound (Machine.returnRecord s r) := by
  by_cases hs : r.state = .active ∨ r.state = .chosen
  · rw [returnRecord_of hs]
    refine (h.put (recordSound_unseated hr ?_ ?_ ?_ ?_)).inform _
    · obtain hs | hs := hs <;> rw [hs] <;> decide
    · obtain hs | hs := hs <;> rw [hs] <;> decide
    · split
      · exact .inr (.inr rfl)
      · exact .inl rfl
    · split
      · exact fun hc => RecState.noConfusion hc
      · next he => exact fun _ => (ended_isEmpty_iff r).2 he
  · have hid : Machine.returnRecord s r = s := by
      unfold Machine.returnRecord
      split
      · next hs' => exact absurd (.inl hs') hs
      · next hs' => exact absurd (.inr hs') hs
      all_goals rfl
    rwa [hid]

theorem RecordsSound.abortCheck (h : RecordsSound s) (w : WheelNo) : RecordsSound (Machine.abortCheck s w) :=
  h.congr (abortCheck_table s w)

theorem RecordsSound.suspicion (h : RecordsSound s) (w : WheelNo) (cause : BreakCause) :
    RecordsSound (Machine.suspicion s w cause) := by
  obtain heq | ⟨r, hh, hr, heq⟩ := suspicion_cases s w cause
  · rwa [heq]
  · rw [heq]
    refine ((h.put ?_).congr (t := Machine.stopFilters _ w) rfl).abortCheck w
    have hsound := h r (holder_mem hh)
    exact recordSound_moved hsound (v := .suspect) (x := r.seat) (c := some cause) (by simp [hsound.seat, hr]) (by simp) (by simp)

theorem RecordsSound.endCheck (h : RecordsSound s) (w : WheelNo) (result : ProbeResult) :
    RecordsSound (Machine.endCheck s w result) := by
  have hfinish : RecordsSound (finishCheck s w result) := h
  cases result
  case low | high => exact hfinish.suspicion w _
  case none | pass | noData | aborted => exact hfinish

theorem RecordsSound.leaveService (h : RecordsSound s) (q : SeatNo) : RecordsSound (Machine.leaveService s q) := by
  obtain ⟨w, rfl⟩ | hd := seat_cases q
  · by_cases hc : CutOpen s w
    · rw [leaveService_of_cut s hc]
      exact (h.closeCut w).congr (raiseIf_table ..)
    · rw [leaveService_of_no_cut s hc]
      exact h.congr (raiseIf_table ..)
  · rwa [leaveService_of_dresser s hd]

theorem RecordsSound.takeOff (h : RecordsSound s) (q : SeatNo) {expected next : RecState}
    (hv : expected = .active ∧ next = .spent ∨ expected = .suspect ∧ next = .broken) :
    RecordsSound (Machine.takeOff s q expected next) := by
  unfold Machine.takeOff
  split
  · next r hh =>
    split
    · next hs =>
      have hr := h r (holder_mem hh)
      have hcause : r.cause.isSome = true ↔ next = .suspect ∨ next = .broken := by
        rw [hr.cause, hs]
        obtain ⟨rfl, rfl⟩ | ⟨rfl, rfl⟩ := hv <;> simp
      refine h.put (recordSound_moved hr (x := none) (c := r.cause) ?_ hcause ?_) <;>
        obtain ⟨_, rfl⟩ | ⟨_, rfl⟩ := hv <;> simp
    · exact h
  · exact h

theorem RecordsSound.beginChange (h : RecordsSound s) (q : SeatNo) : RecordsSound (Machine.beginChange s q) :=
  ((h.leaveService q).takeOff q (.inl ⟨rfl, rfl⟩)).select q none

theorem RecordsSound.toolEnded (h : RecordsSound s) (q : SeatNo) : RecordsSound (Machine.toolEnded s q) := by
  by_cases hq : s.seats[q].service = .running
  · cases hp : s.stations[stationOf q].partOpen with
    | true =>
      rw [toolEnded_of_part_open hq hp]
      exact h
    | false =>
      rw [toolEnded_of_no_part hq hp]
      exact h.beginChange q
  · rwa [toolEnded_of_not_running hq]

theorem RecordsSound.tell {p : State × Bool} (h : RecordsSound p.1) (q : SeatNo) : RecordsSound (Machine.tell p q) := by
  unfold Machine.tell
  split; exacts [h.toolEnded q, h]

theorem RecordsSound.enterService (h : RecordsSound s) (q : SeatNo) : RecordsSound (Machine.enterService s q) :=
  h.congr (enterService_keeps s q).1

end Operations

end Sys2Proof.Proofs

/-! The records stay sound through the commands and the events, and the table stays in order. O22 from these. -/

namespace Sys2Proof.Proofs

open Sys2Proof.Machine Sys2Proof.Safety Sys2Proof.Laws

/-! ### The records that ENROL and EDIT write -/

theorem toNat_tri_le (x : Tri) : x.toNat ≤ 16777215 := Nat.le_of_lt_succ x.isLt

theorem toNat_half_le (x : Half) : x.toNat ≤ 65535 := Nat.le_of_lt_succ x.isLt

theorem limitArg_le {presence : Byte} {bit value n : Nat} (h : value ≤ n) : (limitArg presence bit value).getD 0 ≤ n := by
  unfold limitArg
  split
  · exact h
  · exact Nat.zero_le n

theorem toolArg_range {t : Half} {n : Nat} (h : toolArg t = some n) : 1 ≤ n ∧ n ≤ 65534 := by
  obtain ⟨rfl, hok⟩ := toolArg_some h
  simp only [toolOk, Bool.and_eq_true, bne_iff_ne] at hok
  obtain ⟨h0, h1⟩ := hok
  have hlt := t.isLt
  have h0' : t.toNat ≠ 0 := fun h => h0 (BitVec.eq_of_toNat_eq h)
  have h1' : t.toNat ≠ 65535 := fun h => h1 (BitVec.eq_of_toNat_eq h)
  omega

theorem newRecord_sound {t : Half} {n : Nat} (h : toolArg t = some n) (k : Kind) (presence : Byte) (m : Measures) :
    RecordSound (newRecord n k presence m) where
  number := toolArg_range h
  parts := ⟨toNat_tri_le _, limitArg_le (toNat_tri_le _)⟩
  wear := ⟨toNat_tri_le _, limitArg_le (toNat_tri_le _)⟩
  dress := ⟨toNat_half_le _, limitArg_le (toNat_half_le _)⟩
  stock := ⟨Nat.le_refl _, toNat_half_le _, limitArg_le (toNat_half_le _)⟩
  ended := rfl
  seat := by
    simp only [newRecord, Option.isSome_none, Bool.false_eq_true, false_iff]
    split <;> simp
  cause := by
    simp only [newRecord, Option.isSome_none, Bool.false_eq_true, false_iff]
    split <;> simp
  unended h := by
    simp only [newRecord] at h ⊢
    split at h
    · assumption
    · simp at h

theorem editFields_inRange {r : ToolRecord} (h : InRange r) (apply presence : Byte) (m : Measures) :
    InRange (editFields apply presence m r) := by
  have hite {c : Bool} {a b n : Nat} (ha : a ≤ n) (hb : b ≤ n) : (if c then a else b) ≤ n := by split <;> assumption
  have hlim {c : Bool} {a b : Option Nat} {n : Nat} (ha : a.getD 0 ≤ n) (hb : b.getD 0 ≤ n) :
      (if c then a else b).getD 0 ≤ n := by split <;> assumption
  refine ⟨h.number, ⟨hite (toNat_tri_le _) h.parts.1, hlim (limitArg_le (toNat_tri_le _)) h.parts.2⟩,
    ⟨hite (toNat_tri_le _) h.wear.1, hlim (limitArg_le (toNat_tri_le _)) h.wear.2⟩,
    ⟨hite (toNat_half_le _) h.dress.1, hlim (limitArg_le (toNat_half_le _)) h.dress.2⟩,
    ?_, hite (toNat_half_le _) h.stock.2.1, hlim (limitArg_le (toNat_half_le _)) h.stock.2.2⟩
  change (if _ then _ else _) ≤ (if _ then _ else _)
  split
  · exact Nat.le_refl _
  · exact h.stock.1

/-- The record as EDIT writes it, in the state that EDIT leaves it in. -/
theorem edited_sound {r : ToolRecord} (h : RecordSound r) (apply presence : Byte) (m : Measures) (margin : Option Nat)
    {v : RecState} {x : Option SeatNo} (hseat : x.isSome = true ↔ v = .chosen ∨ v = .active ∨ v = .suspect)
    (hcause : r.cause.isSome = true ↔ v = .suspect ∨ v = .broken)
    (hend : v = .available ∨ v = .chosen → ¬ HasEnd (judged margin (edited apply presence m r))) :
    RecordSound { judged margin (edited apply presence m r) with state := v, seat := x } := by
  have hrange := editFields_inRange (recordSound_inRange h) apply presence m
  exact recordSound_recomputed (r := { editFields apply presence m r with state := v, seat := x })
    ⟨hrange.number, hrange.parts, hrange.wear, hrange.dress, hrange.stock⟩ .command margin hseat hcause
    fun hv => (ended_isEmpty_iff (judged margin (edited apply presence m r))).2 (hend hv)

/-! ### The commands -/

section Commands

variable {s : State} (h : RecordsSound s)

include h

theorem enrolCommand_sound (t : Half) (k p : Byte) (m : Measures) : RecordsSound (enrolCommand t k p m s).1 := by
  unfold enrolCommand
  split
  · next n k ht _ =>
    split_ifs
    · exact h
    · exact h
    · intro r hr
      obtain rfl | hr := List.mem_cons.1 ((insertRecord_perm _ _).mem_iff.1 hr)
      · exact newRecord_sound ht k p m
      · exact h r hr
  · exact h

theorem restate_sound (n : Nat) {v : RecState} (hv : ∀ r, s.find n = some r → RecordSound { r with state := v }) :
    RecordsSound (s.restate n v) := by
  cases hf : s.find n with
  | none => simpa only [State.restate, hf] using h
  | some r =>
    rw [restate_eq s n r v hf]
    exact h.put (hv r hf)

theorem reselect_sound (n : Nat) {v : RecState} (hv : ∀ r, s.find n = some r → RecordSound { r with state := v, seat := none }) :
    RecordsSound (reselect s n v) := by
  unfold reselect
  split
  · next r hf => split; exacts [(h.put (hv r hf)).select _ _, h.put (hv r hf)]
  · exact h

/-- The record that EDIT names, unmounted: written, and then moved as the change of its ended set has it. -/
theorem editEffect_unmounted_sound {r r' : ToolRecord} (hf : s.find r.number = some r) (hm : r.state.mounted = false)
    (hb : r.state ≠ .broken) (apply presence : Byte) (m : Measures)
    (hr' : r' = judged (s.marginOf r) (edited apply presence m r)) :
    RecordsSound (editEffect (s.putRecord r') r (decide (NewEnd r r')) (decide (HasEnd r ∧ ¬ HasEnd r'))) := by
  have hr := h r (find_mem hf)
  have hcause : r.cause = none := recordSound_no_cause hr (by rintro hs; rw [hs] at hm; cases hm) hb
  have hnew {v : RecState} {x : Option SeatNo} (hseat : x.isSome = true ↔ v = .chosen ∨ v = .active ∨ v = .suspect)
      (hv : ¬ (v = .suspect ∨ v = .broken)) (hend : v = .available ∨ v = .chosen → ¬ HasEnd r') :
      RecordSound { r' with state := v, seat := x } := by
    rw [hr'] at hend ⊢
    exact edited_sound hr apply presence m _ hseat (by rw [hcause]; exact iff_of_false Bool.false_ne_true hv) hend
  have hstate : r'.state = r.state := by rw [hr']; rfl
  have hseat : r'.seat = r.seat := by rw [hr']; rfl
  have hnumber : r'.number = r.number := by rw [hr']; rfl
  have hput (hend : r.state = .available ∨ r.state = .chosen → ¬ HasEnd r') : RecordsSound (s.putRecord r') := by
    refine h.put ?_
    have hsound := hnew (v := r'.state) (x := r'.seat) (by rw [hstate, hseat]; exact hr.seat)
      (by rw [hstate, ← hr.cause, hcause]; exact Bool.false_ne_true) (by rw [hstate]; exact hend)
    exact hsound
  have hkept (hne : ¬ NewEnd r r') (hs : r.state = .available ∨ r.state = .chosen) : ¬ HasEnd r' := by
    have hold := (ended_isEmpty_iff r).1 (hr.unended hs)
    grind
  have hfind : (s.putRecord r').find r.number = some r' := by
    rw [← hnumber] at hf ⊢
    exact find_putRecord_same hf
  cases hs : r.state with
  | active | suspect => rw [hs] at hm; cases hm
  | broken => exact absurd hs hb
  | held =>
    simp only [editEffect, hs]
    exact hput (by rw [hs]; simp)
  | available =>
    have hnone : r.seat = none := recordSound_no_seat hr (by rw [hs]; rfl)
    by_cases hne : NewEnd r r'
    · simp only [editEffect, hs, hne, decide_true, if_true]
      rw [← hnumber, restate_putRecord s r' r _ (by rw [hnumber, hf])]
      refine h.put ?_
      have hsound := hnew (v := .spent) (x := r'.seat) (by rw [hseat, hnone]; simp) (by simp) (by simp)
      exact hsound
    · simp only [editEffect, hs, hne, decide_false, Bool.false_eq_true, if_false]
      exact hput (hkept hne)
  | chosen =>
    obtain ⟨q, hq⟩ := Option.isSome_iff_exists.1 (hr.seat.2 (.inl hs))
    by_cases hne : NewEnd r r'
    · simp only [editEffect, hs, hne, decide_true, if_true]
      rw [← hnumber, reselect_putRecord s r' r _ q (by rw [hnumber, hf]) (hseat.trans hq)]
      exact (h.put (hnew (v := .spent) (x := none) (by simp) (by simp) (by simp))).select q none
    · simp only [editEffect, hs, hne, decide_false, Bool.false_eq_true, if_false]
      exact hput (hkept hne)
  | spent =>
    have hnone : r.seat = none := recordSound_no_seat hr (by rw [hs]; rfl)
    by_cases hun : HasEnd r ∧ ¬ HasEnd r'
    · simp only [editEffect, hs, decide_eq_true hun, if_true]
      rw [← hnumber, restate_putRecord s r' r _ (by rw [hnumber, hf])]
      refine (h.put ?_).inform _
      have hsound := hnew (v := .available) (x := r'.seat) (by rw [hseat, hnone]; simp) (by simp) fun _ => hun.2
      exact hsound
    · simp only [editEffect, hs, decide_eq_false hun, Bool.false_eq_true, if_false]
      exact hput (by rw [hs]; simp)

theorem editCommand_sound (t : Half) (a p : Byte) (m : Measures) : RecordsSound (editCommand t a p m s).1 := by
  by_cases ht : t = 0 ∨ t = 0xFFFF
  · rwa [editCommand_bad_tool ht]
  cases hf : s.find t.toNat with
  | none => rwa [editCommand_unknown ht hf]
  | some r =>
    obtain ⟨h0, h1⟩ := not_or.1 ht
    by_cases hb : r.state = .broken
    · rwa [editCommand_of_broken h0 h1 hf hb]
    have hr := h r (find_mem hf)
    rw [editCommand_of_found h0 h1 hf hb rfl]
    cases hm : r.state.mounted with
    | false =>
      rw [measureWrite_unmounted s .command r _ hm]
      exact editEffect_unmounted_sound h (by rw [find_number hf, hf]) hm hb a p m rfl
    | true =>
      have hwritten : RecordsSound (measureWrite s .command r (edited a p m r)).1 :=
        h.measureWrite (edited_sound hr a p m _ hr.seat hr.cause fun hv => absurd hv (mounted_not_selectable hm))
      generalize (measureWrite s .command r (edited a p m r)).1 = u at hwritten
      unfold editEffect
      split
      case h_1 hs => rw [hs] at hm; cases hm
      case h_2 hs => rw [hs] at hm; cases hm
      case h_3 =>
        split
        · split
          · exact hwritten.toolEnded _
          · split <;> exact hwritten
        · exact hwritten
      case h_4 hs => rw [hs] at hm; cases hm
      all_goals exact hwritten

theorem leaveGroup_sound (r : ToolRecord) : RecordsSound (leaveGroup s r) := by
  unfold leaveGroup
  split
  · split <;> exact h
  · exact h

theorem retireCommand_sound (t : Half) : RecordsSound (retireCommand t s).1 := by
  unfold retireCommand
  split
  · split
    · split
      · exact h
      · exact fun r hr => leaveGroup_sound h _ r (List.mem_of_mem_filter hr)
    · exact h
  · exact h

theorem lockCommand_sound (t : Half) : RecordsSound (lockCommand t s).1 := by
  have hheld {n : Nat} {r : ToolRecord} (hf : s.find n = some r) (hs : r.state ≠ .suspect) (hb : r.state ≠ .broken) :
      RecordSound { r with state := .held, seat := none } :=
    recordSound_unseated (h r (find_mem hf)) hs hb (.inr (.inl rfl)) nofun
  have hfree {n : Nat} {r : ToolRecord} (hf : s.find n = some r) (hs : r.state = .available ∨ r.state = .spent) :
      RecordsSound (s.restate n .held) := by
    refine restate_sound h n fun x hx => ?_
    obtain rfl := Option.some.inj (hf.symm.trans hx)
    have hnone : r.seat = none :=
      recordSound_no_seat (h r (find_mem hf)) (by obtain hs | hs := hs <;> rw [hs] <;> rfl)
    have hsound := hheld hf (by obtain hs | hs := hs <;> rw [hs] <;> decide)
      (by obtain hs | hs := hs <;> rw [hs] <;> decide)
    rwa [← hnone] at hsound
  unfold lockCommand
  split
  · split
    · next r hf =>
      split
      · next hs => exact hfree hf (.inl hs)
      · next hs => exact hfree hf (.inr hs)
      · next hs =>
        refine reselect_sound h _ fun x hx => ?_
        obtain rfl := Option.some.inj (hf.symm.trans hx)
        exact hheld hf (by rw [hs]; decide) (by rw [hs]; decide)
      all_goals exact h
    · exact h
  · exact h

theorem unlockCommand_sound (t : Half) : RecordsSound (unlockCommand t s).1 := by
  have hreturned {n : Nat} {r : ToolRecord} (hf : s.find n = some r) (hs : r.state = .held) {v : RecState}
      (hv : v = .available ∨ v = .spent) (hend : v = .available → r.ended.isEmpty = true) :
      RecordsSound (s.restate n v) := by
    refine restate_sound h n fun x hx => ?_
    obtain rfl := Option.some.inj (hf.symm.trans hx)
    have hr := h r (find_mem hf)
    have hnone : r.seat = none := recordSound_no_seat hr (by rw [hs]; rfl)
    have hsound := recordSound_unseated hr (v := v) (by rw [hs]; decide) (by rw [hs]; decide)
      (hv.imp_right .inr) hend
    rwa [← hnone] at hsound
  unfold unlockCommand
  split
  · split
    · next r hf =>
      split
      · next hs =>
        split
        · next he => exact (hreturned hf hs (.inl rfl) fun _ => he).inform _
        · exact hreturned hf hs (.inr rfl) nofun
      · exact h
    · exact h
  · exact h

/-- A table rewritten record by record, each with another group, carry or warned flag, is sound. -/
theorem map_sound {f : ToolRecord → ToolRecord}
    (hf : ∀ r, ∃ g c b, f r = { r with group := g, wearCarry := c, warned := b }) {t : State} (ht : t.table = s.table.map f) :
    RecordsSound t := by
  intro r hr
  rw [ht] at hr
  obtain ⟨x, hx, rfl⟩ := List.mem_map.1 hr
  obtain ⟨g, c, b, hfx⟩ := hf x
  rw [hfx]
  exact recordSound_regrouped (h x hx) g c b

theorem redefine_sound (g : GroupNo) (grp : Group) (p : Params) : RecordsSound (redefine s g grp p) := by
  refine map_sound h (fun r => ?_) (redefine_redefined s g grp p).records
  rw [rewarned_carryClamped]
  split
  · exact ⟨r.group, _, _, rfl⟩
  · exact ⟨r.group, r.wearCarry, r.warned, rfl⟩

theorem defineCommand_sound (a : DefineArgs) : RecordsSound (defineCommand a s).1 := by
  unfold defineCommand
  split
  · split
    · exact h
    · unfold defineGroup
      split
      case h_4 => split; exacts [redefine_sound h _ _ _, h]
      all_goals exact h
  · exact h

theorem linkCommand_sound (g : Byte) (t : Half) (x : Byte) : RecordsSound (linkCommand g t x s).1 := by
  unfold linkCommand
  split
  · split
    · split
      · next r hf =>
        split_ifs
        case neg =>
          refine RecordsSound.inform (RecordsSound.put ?_ (recordSound_regrouped (h r (find_mem hf)) _ _ _)) _
          exact h
        all_goals exact h
      · exact h
    · exact h
  · exact h

theorem unlinkCommand_sound (t : Half) : RecordsSound (unlinkCommand t s).1 := by
  unfold unlinkCommand
  split
  · split
    · next r hf =>
      split_ifs
      case neg => exact (leaveGroup_sound h r).put (recordSound_regrouped (h r (find_mem hf)) _ _ _)
      all_goals exact h
    · exact h
  · exact h

theorem unbindSeat_sound (q : SeatNo) : RecordsSound (unbindSeat s q) := by
  have hleft : RecordsSound ((leaveQueue (leaveService s q) q).setSeat q { service := .unbound, group := none }) := by
    have hservice := h.leaveService q
    unfold leaveQueue
    split
    · split <;> exact hservice
    · exact hservice
  unfold unbindSeat
  simp only
  split
  · next r hh => exact hleft.returnRecord (hleft r (holder_mem hh))
  · exact hleft

theorem mountChosen_sound (q : SeatNo) {r : ToolRecord} (hr : RecordSound r) (hs : r.state = .chosen) :
    RecordsSound (mountChosen s q r) := by
  rw [mountChosen_eq]
  refine ((h.put ?_).enterService q).congr (raiseIf_table ..)
  exact recordSound_moved hr (x := r.seat) (c := r.cause) (by simp [hr.seat, hs]) (by simp [hr.cause, hs]) (by simp)

theorem mountAlternative_sound (q : SeatNo) (g : GroupNo) {r : ToolRecord} (hr : RecordSound r)
    (hs : r.state = .available) : RecordsSound (mountAlternative s q g r) := by
  have hput := h.put (recordSound_moved hr (v := .active) (x := some q) (c := r.cause) (by simp) (by simp [hr.cause, hs])
    (by simp))
  have hcursor : RecordsSound (cursorTo (s.putRecord { r with state := .active, seat := some q }) g r.number) := by
    unfold cursorTo
    split <;> exact hput
  have hreturned : RecordsSound (match s.holder q with
      | some d => returnRecord (cursorTo (s.putRecord { r with state := .active, seat := some q }) g r.number) d
      | none => cursorTo (s.putRecord { r with state := .active, seat := some q }) g r.number) := by
    split
    · next d hh => exact hcursor.returnRecord (h d (holder_mem hh))
    · exact hcursor
  exact (hreturned.enterService q).congr (raiseIf_table ..)

theorem mountCommand_sound (q : Byte) (t : Half) : RecordsSound (mountCommand q t s).1 := by
  unfold mountCommand
  split
  · split
    · exact h
    · split
      · next r hf =>
        have hr := h r (find_mem hf)
        split
        · next hs => exact mountChosen_sound h _ hr hs.1
        · split
          · split
            · next he => exact mountAlternative_sound h _ _ hr ((eligibleIn_iff r _).1 he).1
            · exact h
          · exact h
      · exact h
  · exact h

theorem swapSeat_sound (q : SeatNo) : RecordsSound (swapSeat s q) := by
  have hleft := h.leaveService q
  unfold swapSeat
  simp only
  split
  · next r hh => exact (hleft.returnRecord (hleft r (holder_mem hh))).select _ _
  · exact hleft

theorem releaseSeat_sound (q : SeatNo) : RecordsSound (releaseSeat s q) := by
  unfold releaseSeat
  split
  · next r hh =>
    split
    · next hs =>
      have hr := h r (holder_mem hh)
      have hput := h.put (recordSound_moved hr (v := .active) (x := r.seat) (c := none) (by simp [hr.seat, hs]) (by simp)
        (by simp))
      simp only
      split
      · exact hput.beginChange q
      · split <;> exact hput
    · exact h
  · exact h

theorem dressSeat_sound (q : SeatNo) (stock : Nat) : RecordsSound (dressSeat s q stock) := by
  unfold dressSeat
  split
  · next r hr =>
    obtain ⟨hsound, hm⟩ := h.mountedAt hr
    exact (h.measureWrite (recordSound_dressed hsound hm _ _ _)).tell q
  · exact h

theorem dressCommand_sound (q : Byte) (x : Half) : RecordsSound (dressCommand q x s).1 := by
  unfold dressCommand
  split
  · split
    · split
      · unfold dressWheel
        have hwheel := dressSeat_sound h
        simp only
        split
        · exact dressSeat_sound (hwheel _ _) _ _
        · exact hwheel _ _
      · exact h
    · exact h
  · exact h

/-- A command leaves every record sound. -/
theorem command_sound {i : Instr} {f : State → State × Reply} (hf : commandOf i = some f) : RecordsSound (f s).1 := by
  cases i <;> cases hf
  case enrol => exact enrolCommand_sound h _ _ _ _
  case edit => exact editCommand_sound h _ _ _ _
  case retire => exact retireCommand_sound h _
  case query => unfold queryCommand; split; (split <;> exact h); exact h
  case next => unfold nextCommand; split <;> exact h
  case lock => exact lockCommand_sound h _
  case unlock => exact unlockCommand_sound h _
  case define => exact defineCommand_sound h _
  case link => exact linkCommand_sound h _ _ _
  case unlink => exact unlinkCommand_sound h _
  case group => unfold groupCommand; split; (split <;> exact h); exact h
  case bind =>
    unfold bindCommand
    split
    · split
      · exact h
      · split
        · split; exacts [h, RecordsSound.select (s := s.setSeat _ _) h _ _]
        · exact h
    · exact h
  case unbind =>
    unfold unbindCommand
    split
    · split
      case h_4 | h_5 => split; exacts [h, unbindSeat_sound h _]
      case h_2 | h_3 => exact unbindSeat_sound h _
      all_goals exact h
    · exact h
  case mount => exact mountCommand_sound h _ _
  case swap =>
    unfold swapCommand
    split
    · split_ifs
      case neg => exact swapSeat_sound h _
      all_goals exact h
    · exact h
  case whereSeat => unfold whereCommand; split <;> exact h
  case release =>
    unfold releaseCommand
    split
    · split; exacts [releaseSeat_sound h _, h]
    · exact h
  case condemn =>
    unfold condemnCommand
    split
    · split
      · exact ((h.leaveService _).takeOff _ (.inr ⟨rfl, rfl⟩)).select _ _
      · exact h
    · exact h
  case check => unfold checkCommand; split; (split; (split_ifs <;> exact h); exact h); exact h
  case dress => exact dressCommand_sound h _ _
  case readLoad => unfold readLoadCommand; split <;> exact h
  case setSense => unfold setSenseCommand; split <;> exact h
  case takeNotices => exact h
  case setLink => exact h
  case resume => unfold resumeCommand; split <;> exact h
  case ident => exact h

end Commands

/-! ### The events -/

theorem frame_linkAndSdo {i : Instr} {f : State → State} (hf : eventOf i = some f) (hi : IsFrame i) (s : State) :
    LinkAndSdo s (f s) := by
  obtain ⟨m, a, l, rfl | rfl | rfl⟩ | ⟨m, b, rfl⟩ := hi <;> cases hf
  · exact atMoment_linkAndSdo s m .refl fun s => endFrame_linkAndSdo s a fun f s => takeStatus_linkAndSdo s a l f
  · exact atMoment_linkAndSdo s m .refl fun s => endFrame_linkAndSdo s a fun f s => takeCommand_linkAndSdo s a l f
  · exact atMoment_linkAndSdo s m (fun s => formReply_linkAndSdo s a l)
      fun s => endFrame_linkAndSdo s a fun f s => takeFetch_linkAndSdo s a l f
  · exact atMoment_linkAndSdo s m .refl fun s => takeNoKind_linkAndSdo s b

section Events

variable {s : State} (h : RecordsSound s)

include h

theorem takeCutRise_sound (w : WheelNo) : RecordsSound (takeCutRise w s) := by
  obtain ⟨l, hl⟩ := takeCutMark_eq s w .rising
  by_cases hs : InService s (seatOfWheel w)
  · rw [takeCutRise_in_service hs, hl]
    split
    · exact h
    · refine RecordsSound.abortCheck ?_ w
      exact h
  · rw [takeCutRise_out_of_service hs, hl]
    exact h

theorem takeCutFall_sound (w : WheelNo) : RecordsSound (takeCutFall w s) := by
  obtain ⟨l, hl⟩ := takeCutMark_eq s w .falling
  unfold takeCutFall
  simp only [hl]
  split
  · refine RecordsSound.tell (RecordsSound.closeCut ?_ w) _
    exact h
  · exact h

theorem partCharges_sound (qs : List SeatNo) : RecordsSound (partCharges s qs).1 := by
  induction qs generalizing s with
  | nil => exact h
  | cons q qs ih =>
    refine ih ?_
    unfold partCharge
    split
    · next r hr =>
      obtain ⟨hsound, hm⟩ := h.mountedAt hr
      split; exacts [h.measureWrite (recordSound_counted hsound hm _ _), h]
    · exact h

theorem beginChanges_sound (qs : List SeatNo) : RecordsSound (qs.foldl beginChange s) := by
  induction qs generalizing s with
  | nil => exact h
  | cons q qs ih => exact ih (h.beginChange q)

theorem clearPart_sound (st : StationNo) : RecordsSound (clearPart s st) := by
  have hclear (ws : List WheelNo) (u : State) :
      (ws.foldl (fun s w => s.setWheel w { s.wheels[w] with cutSeen := false }) u).table = u.table := by
    induction ws generalizing u with
    | nil => rfl
    | cons w ws ih => exact ih _
  exact h.congr (hclear _ _)

theorem takePartEnd_sound (st : StationNo) : RecordsSound (takePartEnd st s) := by
  unfold takePartEnd
  simp only
  split
  · refine beginChanges_sound ?_ _
    exact clearPart_sound (partCharges_sound (s := takePendMark s st) h (seatsOf st)) st
  · exact h

theorem probeTest_sound (w : WheelNo) (a : Nat) : RecordsSound (probeTest s w a) := by
  unfold probeTest
  split
  · split_ifs
    · exact h.endCheck w _
    · exact h.endCheck w _
    · exact h
  · exact h

theorem convert_sound (code : Nat) : RecordsSound (convert code s) := by
  by_cases h8 : s.scan.pointer = 8
  · rw [convert_ref s _ h8]
    exact RecordsSound.congr (s := scanned s code) h (monitor_keepsTables _ _).table
  · rw [convert_load s _ h8]
    split
    · unfold published
      split
      · exact probeTest_sound (RecordsSound.congr (s := scanned s code) h (supervise_keepsTables _ _ _).table) _ _
      · exact h
    · exact h

theorem linkAndSdo_sound {t : State} (ht : LinkAndSdo s t) : RecordsSound t := by
  obtain ⟨l, x, _, rfl⟩ := ht
  exact h

/-- An event leaves every record sound. -/
theorem event_sound {i : Instr} {f : State → State} (hf : eventOf i = some f) : RecordsSound (f s) := by
  cases i <;> cases hf
  case statusFrame => exact linkAndSdo_sound h (frame_linkAndSdo rfl (.inl ⟨_, _, _, .inl rfl⟩) s)
  case commandFrame => exact linkAndSdo_sound h (frame_linkAndSdo rfl (.inl ⟨_, _, _, .inr (.inl rfl)⟩) s)
  case fetchFrame => exact linkAndSdo_sound h (frame_linkAndSdo rfl (.inl ⟨_, _, _, .inr (.inr rfl)⟩) s)
  case frameOfNoKind => exact linkAndSdo_sound h (frame_linkAndSdo rfl (.inr ⟨_, _, rfl⟩) s)
  case cutRisingEdge w => exact takeCutRise_sound h w
  case cutFallingEdge w => exact takeCutFall_sound h w
  case partEnd st => exact takePartEnd_sound h st
  case engageDelayEnd => unfold takeEngageEnd; split <;> exact h
  case blankingTimeEnd => unfold takeBlankingEnd; split <;> exact h
  case filterTimerFires w k => unfold takeFilter; split; exacts [RecordsSound.suspicion (s := s.setWheel w _) h w _, h]
  case overtime w =>
    unfold takeOvertime
    split
    · split; exacts [RecordsSound.suspicion (s := s.setWheel w _) h w _, h]
    · exact h
  case checkDurationEnd w =>
    unfold takeCheckEnd
    split
    · split; exacts [h.endCheck w _, h]
    · exact h
  case stretchTimerEnd => unfold takeStretchEnd; split <;> exact h
  case watchdogExpiry => unfold takeExpiry; split <;> exact h
  case conversionEnd => exact convert_sound h _

end Events

/-! ### The table in order -/

theorem tableOrdered_of_numbers {s t : State} (hs : TableOrdered s) (h : t.table.map (·.number) = s.table.map (·.number)) :
    TableOrdered t :=
  ⟨h ▸ hs.1, by rw [← List.length_map (f := (·.number)), h, List.length_map]; exact hs.2⟩

theorem enrolCommand_ordered {s : State} (h : TableOrdered s) (t : Half) (k p : Byte) (m : Measures) :
    TableOrdered (enrolCommand t k p m s).1 := by
  unfold enrolCommand
  split
  · next n k _ _ =>
    split_ifs with hf hl
    · exact h
    · exact h
    · have hnone : s.find n = none := Option.not_isSome_iff_eq_none.1 hf
      refine ⟨insertRecord_ordered h.1 ((find_none_iff s n).1 hnone), ?_⟩
      rw [addRecord_table, (insertRecord_perm _ _).length_eq]
      exact Nat.lt_of_not_le hl
  · exact h

theorem retireCommand_ordered {s : State} (h : TableOrdered s) (t : Half) : TableOrdered (retireCommand t s).1 := by
  have hleft (r : ToolRecord) : (leaveGroup s r).table = s.table := by
    unfold leaveGroup
    split
    · split <;> rfl
    · rfl
  unfold retireCommand
  split
  · split
    · split
      · exact h
      · refine ⟨?_, ?_⟩
        · rw [removeRecord_table, hleft]
          exact h.1.sublist (List.filter_sublist.map _)
        · rw [removeRecord_table, hleft]
          exact (List.length_filter_le _ _).trans h.2
    · exact h
  · exact h

theorem command_ordered {i : Instr} {f : State → State × Reply} (hf : commandOf i = some f) {s : State}
    (h : TableOrdered s) : TableOrdered (f s).1 := by
  have htouches := command_touches hf s
  generalize ht : (f s).1 = t at htouches
  cases htouches with
  | rest hrest => exact tableOrdered_of_numbers h hrest.numbers
  | records l g hi =>
    rw [← ht]
    obtain ⟨t, k, p, m, rfl⟩ | ⟨t, rfl⟩ := hi <;> cases hf
    · exact enrolCommand_ordered h t k p m
    · exact retireCommand_ordered h t
  | channel | notices | link => exact h

theorem event_ordered {i : Instr} {f : State → State} (hf : eventOf i = some f) {s : State} (h : TableOrdered s) :
    TableOrdered (f s) := by
  have hstirs := event_stirs hf s
  generalize ht : f s = t at hstirs
  cases hstirs with
  | control hc => exact tableOrdered_of_numbers h hc.numbers
  | frame _ hl =>
    obtain ⟨l, x, _, rfl⟩ := hl
    exact h
  | expiry => exact h
  | conversion code hi =>
    subst hi
    cases hf
    rw [← ht]
    by_cases h8 : s.scan.pointer = 8
    · rw [convert_ref s _ h8]
      exact tableOrdered_of_numbers (s := scanned s code.toNat) h (congrArg _ (monitor_keepsTables _ _).table)
    · exact tableOrdered_of_numbers (s := scanned s code.toNat) h (convert_keepsRest s _ h8).numbers

theorem tableSound_keptByStep : KeptByStep TableSound where
  reset _ _ _ := reset_tableSound
  commit _ _ h := h
  reply _ _ h := h
  count _ _ h := h
  queue _ _ h := h
  command _ _ _ hf h := ⟨command_ordered hf h.1, command_sound h.2 hf⟩
  event _ _ _ hf h := ⟨event_ordered hf h.1, event_sound h.2 hf⟩
  tick _ _ h := h

/-- Settles O22: the table stays in order and its records sound through each part of a step. -/
theorem everyStepKeepsTheTableSound : Obligations.EveryStepKeepsTheTableSound :=
  fun _ _ hs h => tableSound_keptByStep.step hs h

end Sys2Proof.Proofs

/-! What an operation at some seats leaves of the others: their service, their wheels and flags, and every record that is
not AVAILABLE and not theirs; and O51 from this. -/

namespace Sys2Proof.Proofs

open Sys2Proof.Machine Sys2Proof.Safety Sys2Proof.Laws

/-! ### Away from some seats -/

/-- A record before and after an operation at the seats `Q`: as before unless it was theirs or AVAILABLE, and put at no
other seat. -/
structure Away (Q : List SeatNo) (x z : ToolRecord) : Prop where
  number : z.number = x.number
  kept   : z = x ∨ (∃ q ∈ Q, x.seat = some q) ∨ x.state = .available
  seat   : ∀ p : SeatNo, p ∉ Q → z.seat = some p → x.seat = some p

/-- The state before and after an operation at the seats `Q`. -/
structure Elsewhere (Q : List SeatNo) (s t : State) : Prop where
  records : List.Forall₂ (Away Q) s.table t.table
  seats   : ∀ p : SeatNo, p ∉ Q → t.seats[p] = s.seats[p]
  wheels  : ∀ w : WheelNo, seatOfWheel w ∉ Q → t.wheels[w] = s.wheels[w]
  flags   : ∀ p : SeatNo, p ∉ Q → t.notices.seats[p] = s.notices.seats[p]
  params  : ∀ g : GroupNo, t.groups[g].map (·.params) = s.groups[g].map (·.params)

section Elsewhere

variable {Q : List SeatNo} {s t u : State}

theorem Away.refl (Q : List SeatNo) (x : ToolRecord) : Away Q x x := ⟨rfl, .inl rfl, fun _ _ h => h⟩

theorem Away.trans {x y z : ToolRecord} (h₁ : Away Q x y) (h₂ : Away Q y z) : Away Q x z := by
  refine ⟨h₂.number.trans h₁.number, ?_, fun p hp hz => h₁.seat p hp (h₂.seat p hp hz)⟩
  obtain rfl | hx := h₁.kept
  · exact h₂.kept
  · exact .inr hx

theorem Away.mono {Q' : List SeatNo} {x z : ToolRecord} (h : Away Q x z) (hQ : Q ⊆ Q') : Away Q' x z :=
  ⟨h.number, h.kept.imp_right (Or.imp_left fun ⟨q, hq, hx⟩ => ⟨q, hQ hq, hx⟩), fun p hp => h.seat p fun hq => hp (hQ hq)⟩

theorem forall₂_away_refl (Q : List SeatNo) (l : List ToolRecord) : List.Forall₂ (Away Q) l l :=
  List.forall₂_same.2 fun x _ => .refl Q x

theorem Elsewhere.of_tables (htable : t.table = s.table) (hseats : t.seats = s.seats) (hwheels : t.wheels = s.wheels)
    (hnotices : t.notices.seats = s.notices.seats) (hgroups : t.groups = s.groups) : Elsewhere Q s t := by
  refine ⟨?_, fun _ _ => by rw [hseats], fun _ _ => by rw [hwheels], fun _ _ => by rw [hnotices], fun _ => by rw [hgroups]⟩
  rw [htable]
  exact forall₂_away_refl Q s.table

theorem Elsewhere.refl (Q : List SeatNo) (s : State) : Elsewhere Q s s := .of_tables rfl rfl rfl rfl rfl

theorem Elsewhere.trans (h₁ : Elsewhere Q s t) (h₂ : Elsewhere Q t u) : Elsewhere Q s u where
  records := by
    have hcomp : ∀ (a b c : List ToolRecord), List.Forall₂ (Away Q) a b → List.Forall₂ (Away Q) b c → List.Forall₂ (Away Q) a c := by
      intro a b c hab
      induction hab generalizing c with
      | nil => exact id
      | cons hxy _ ih =>
        intro hbc
        obtain ⟨z, c', hyz, htail, rfl⟩ := List.forall₂_cons_left_iff.1 hbc
        exact .cons (hxy.trans hyz) (ih _ htail)
    exact hcomp _ _ _ h₁.records h₂.records
  seats p hp := (h₂.seats p hp).trans (h₁.seats p hp)
  wheels w hw := (h₂.wheels w hw).trans (h₁.wheels w hw)
  flags p hp := (h₂.flags p hp).trans (h₁.flags p hp)
  params g := (h₂.params g).trans (h₁.params g)

theorem Elsewhere.mono {Q' : List SeatNo} (h : Elsewhere Q s t) (hQ : Q ⊆ Q') : Elsewhere Q' s t :=
  ⟨h.records.imp fun _ _ hx => hx.mono hQ, fun p hp => h.seats p fun hq => hp (hQ hq),
    fun w hw => h.wheels w fun hq => hw (hQ hq), fun p hp => h.flags p fun hq => hp (hQ hq), h.params⟩

/-- A record that holds another seat holds it still, if it is not AVAILABLE. -/
theorem Elsewhere.holder (h : Elsewhere Q s t) {p : SeatNo} {d : ToolRecord} (hp : p ∉ Q) (hd : s.holder p = some d)
    (hs : d.state ≠ .available) : t.holder p = some d := by
  have hrec := h.records
  unfold State.holder at *
  generalize s.table = l at *
  generalize t.table = m at *
  induction hrec with
  | nil => exact hd
  | @cons x z l m hx _ ih =>
    by_cases hxp : x.seat = some p
    · rw [List.find?_cons, beq_iff_eq.2 hxp] at hd
      obtain rfl := Option.some.inj hd
      obtain rfl | ⟨q, hq, hxq⟩ | ha := hx.kept
      · rw [List.find?_cons, beq_iff_eq.2 hxp]
      · rw [hxp] at hxq
        exact absurd (Option.some.inj hxq ▸ hq) hp
      · exact absurd ha hs
    · have hzp : z.seat ≠ some p := fun hz => hxp (hx.seat p hp hz)
      rw [List.find?_cons, beq_false_of_ne hxp] at hd
      rw [List.find?_cons, beq_false_of_ne hzp]
      exact ih hd

/-- A record that is not AVAILABLE and at none of the seats stands as it was. -/
theorem Elsewhere.find (h : Elsewhere Q s t) {n : Nat} {d : ToolRecord} (hd : s.find n = some d)
    (hs : d.state ≠ .available) (hq : ∀ q ∈ Q, d.seat ≠ some q) : t.find n = some d := by
  have hrec := h.records
  unfold State.find at *
  generalize s.table = l at *
  generalize t.table = m at *
  induction hrec with
  | nil => exact hd
  | @cons x z l m hx _ ih =>
    rw [List.find?_cons] at hd ⊢
    rw [hx.number]
    by_cases hxn : x.number = n
    · rw [beq_iff_eq.2 hxn] at hd ⊢
      obtain rfl := Option.some.inj hd
      obtain rfl | ⟨q, hqQ, hxq⟩ | ha := hx.kept
      · rfl
      · exact absurd hxq (hq q hqQ)
      · exact absurd ha hs
    · rw [beq_false_of_ne hxn] at hd ⊢
      exact ih hd

theorem Elsewhere.marginOf (h : Elsewhere Q s t) (r : ToolRecord) : t.marginOf r = s.marginOf r := by
  unfold State.marginOf
  split
  · next g _ =>
    have hg := congrArg (Option.map (·.warnMargin)) (h.params g)
    rw [Option.map_map, Option.map_map] at hg
    exact hg
  · rfl

theorem Elsewhere.group (h : Elsewhere Q s t) {g : GroupNo} {grp : Group} (hg : s.groups[g] = some grp) :
    ∃ grp', t.groups[g] = some grp' ∧ grp'.params = grp.params := by
  have hp := h.params g
  rw [hg] at hp
  cases ht : t.groups[g] with
  | none => rw [ht] at hp; cases hp
  | some grp' =>
    rw [ht] at hp
    exact ⟨grp', rfl, Option.some.inj hp⟩

end Elsewhere

/-! ### The operations at a seat -/

section Seat

variable {s : State} {q : SeatNo}

/-- A write of the record at a seat, or of an AVAILABLE one, that puts it at no other seat. -/
theorem putRecord_elsewhere (ho : TableOrdered s) {r r' : ToolRecord} (hr : r ∈ s.table) (hn : r'.number = r.number)
    (hq : r.seat = some q ∨ r.state = .available) (hseat : r'.seat = some q ∨ r'.seat = none) :
    Elsewhere [q] s (s.putRecord r') := by
  refine ⟨?_, fun _ _ => rfl, fun _ _ => rfl, fun _ _ => rfl, fun _ => rfl⟩
  rw [putRecord_table, List.forall₂_map_right_iff]
  refine List.forall₂_same.2 fun x hx => ?_
  split
  · next hxn =>
    have hxr : x = r := by
      have h₁ := find_of_mem ho hx
      rw [hxn, hn, find_of_mem ho hr] at h₁
      exact (Option.some.inj h₁).symm
    refine ⟨hxn.symm, .inr (hxr ▸ hq.imp_left fun hx => ⟨q, List.mem_singleton_self q, hx⟩), fun p hp hz => ?_⟩
    obtain h | h := hseat <;> rw [h] at hz
    · exact absurd (List.mem_singleton.2 (Option.some.inj hz).symm) hp
    · cases hz
  · exact .refl _ x

theorem setService_elsewhere (s : State) (q : SeatNo) (v : Service) : Elsewhere [q] s (s.setService q v) :=
  ⟨forall₂_away_refl _ _, fun _ hp => setSeat_get_ne s _ (List.ne_of_not_mem_cons hp), fun _ _ => rfl, fun _ _ => rfl,
    fun _ => rfl⟩

theorem raise_elsewhere (s : State) (q : SeatNo) (n : SeatNotice) : Elsewhere [q] s (s.raise q n) :=
  ⟨forall₂_away_refl _ _, fun _ _ => rfl, fun _ _ => rfl, fun _ hp => raise_flags_ne q n (List.ne_of_not_mem_cons hp),
    fun _ => rfl⟩

theorem raiseIf_elsewhere (s : State) (p : Prop) [Decidable p] (q : SeatNo) (n : SeatNotice) :
    Elsewhere [q] s (raiseIf s p q n) := by
  unfold raiseIf
  split; exacts [raise_elsewhere s q n, .refl _ s]

theorem setWheel_elsewhere (s : State) (w : WheelNo) (x : Wheel) : Elsewhere [seatOfWheel w] s (s.setWheel w x) :=
  ⟨forall₂_away_refl _ _, fun _ _ => rfl,
    fun _ hv => setWheel_get_ne s x fun h => hv (h ▸ List.mem_singleton_self _), fun _ _ => rfl, fun _ => rfl⟩

theorem setGroup_elsewhere (Q : List SeatNo) {g : GroupNo} {grp grp' : Group} (hg : s.groups[g] = some grp)
    (hp : grp'.params = grp.params) : Elsewhere Q s (s.setGroup g (some grp')) := by
  refine ⟨forall₂_away_refl _ _, fun _ _ => rfl, fun _ _ => rfl, fun _ _ => rfl, fun h => ?_⟩
  by_cases hh : h = g
  · rw [hh, hg, setGroup_groups, set_get_self, Option.map_some, Option.map_some, hp]
  · rw [setGroup_groups, set_get_ne _ _ hh]

theorem measureWrite_elsewhere (ho : TableOrdered s) {how : RecomputeBy} {old new : ToolRecord} (hold : old ∈ s.table)
    (hq : old.seat = some q) (hn : new.number = old.number) (hseat : new.seat = old.seat) :
    Elsewhere [q] s (measureWrite s how old new).1 := by
  rw [measureWrite_eq s how old new q hq]
  exact ((putRecord_elsewhere (r' := recompute how (s.marginOf old) new) ho hold hn (.inl hq) (.inl (hseat.trans hq))).trans
    (raiseIf_elsewhere ..)).trans (raiseIf_elsewhere ..)

theorem closeCut_elsewhere (ho : TableOrdered s) (w : WheelNo) : Elsewhere [seatOfWheel w] s (closeCut s w).1 := by
  have hwheel := setWheel_elsewhere s w { s.wheels[w] with accumulator := 0, cutTimer := none }
  have ho' : TableOrdered (s.setWheel w { s.wheels[w] with accumulator := 0, cutTimer := none }) := ho
  unfold closeCut
  dsimp only
  split
  · next r p hr _ =>
    obtain ⟨hh, _⟩ := mountedAt_eq_some.1 hr
    exact hwheel.trans (measureWrite_elsewhere (new := chargeWear _ p.nominalLoad r) ho' (holder_mem hh) (holder_seat hh) rfl rfl)
  · exact hwheel

theorem leaveService_elsewhere (ho : TableOrdered s) (q : SeatNo) : Elsewhere [q] s (leaveService s q) := by
  obtain ⟨w, rfl⟩ | hd := seat_cases q
  · by_cases hc : CutOpen s w
    · rw [leaveService_of_cut s hc]
      exact ((closeCut_elsewhere ho w).trans (raiseIf_elsewhere ..)).trans (setWheel_elsewhere ..)
    · rw [leaveService_of_no_cut s hc]
      exact (raiseIf_elsewhere ..).trans (setWheel_elsewhere ..)
  · rw [leaveService_of_dresser s hd]
    exact .refl _ s

theorem takeOff_elsewhere (ho : TableOrdered s) (q : SeatNo) (expected next : RecState) :
    Elsewhere [q] s (takeOff s q expected next) := by
  unfold takeOff
  split
  · next r hh =>
    split
    · exact putRecord_elsewhere (r' := { r with state := next, seat := none }) ho (holder_mem hh) rfl
        (.inl (holder_seat hh)) (.inr rfl)
    · exact .refl _ s
  · exact .refl _ s

theorem select_elsewhere (ho : TableOrdered s) (q : SeatNo) (e : Option Nat) : Elsewhere [q] s (select s q e) := by
  cases hq : s.seats[q].group with
  | none =>
    rw [select, hq]
    exact .refl _ s
  | some g =>
    cases hg : s.groups[g] with
    | none =>
      simp only [select, hq, hg]
      exact .refl _ s
    | some grp =>
      cases hc : choose s g grp e with
      | none =>
        rw [select_of_none hq hg hc]
        exact ((setGroup_elsewhere [q] (grp' := { grp with queue := grp.queue ++ [q] }) hg rfl).trans
          (setService_elsewhere _ q _)).trans (raise_elsewhere _ q _)
      | some p =>
        obtain ⟨r, hf, ha, _⟩ := choose_find hc
        rw [select_of_some hq hg hc hf]
        have hput := putRecord_elsewhere (q := q) (r' := { r with state := .chosen, seat := some q }) ho (find_mem hf) rfl
          (.inr ha) (.inl rfl)
        have hcursor : (grp.moveCursor p.1).params = grp.params := by rw [moveCursor_eq]
        exact ((hput.trans (setGroup_elsewhere [q] hg hcursor)).trans (setService_elsewhere _ q _)).trans
          (raise_elsewhere _ q _)

theorem beginChange_elsewhere (ho : TableOrdered s) (q : SeatNo) : Elsewhere [q] s (beginChange s q) := by
  have ho₁ := tableOrdered_of_numbers ho (leaveService_keepsRest s q).numbers
  have ho₂ := tableOrdered_of_numbers ho₁ (takeOff_keepsRest _ q .active .spent).numbers
  exact ((leaveService_elsewhere ho q).trans (takeOff_elsewhere ho₁ q _ _)).trans (select_elsewhere ho₂ q none)

theorem afterDress_elsewhere (ho : TableOrdered s) {r r' : ToolRecord} (hh : s.holder q = some r)
    (hn : r'.number = r.number) (hseat : r'.seat = r.seat) : Elsewhere [q] s (afterDress s q r r') := by
  have hq := holder_seat hh
  have hput := ((putRecord_elsewhere ho (holder_mem hh) hn (.inl hq) (.inl (hseat.trans hq))).trans
    (raiseIf_elsewhere _ (NewEnd r r' ∧ r.state = .active) q .spent)).trans
    (raiseIf_elsewhere _ (r.warned = false ∧ r'.warned = true) q .warn)
  have hu : TableOrdered (raiseIf (raiseIf (s.putRecord r') (NewEnd r r' ∧ r.state = .active) q .spent)
      (r.warned = false ∧ r'.warned = true) q .warn) := by
    refine tableOrdered_of_numbers ho ?_
    rw [raiseIf_table, raiseIf_table, numbers_putRecord]
  unfold afterDress
  dsimp only
  split
  · split
    · exact hput.trans (setService_elsewhere _ q _)
    · exact hput.trans (beginChange_elsewhere hu q)
  · exact hput

end Seat

/-! ### DRESS of a wheel and its roll -/

theorem dresserOf_ne (w : WheelNo) : dresserOf w ≠ seatOfWheel w := by revert w; decide

theorem holdsTool_congr {s t : State} {q : SeatNo} (h : t.seats[q] = s.seats[q]) : HoldsTool t q ↔ HoldsTool s q := by
  simp only [HoldsTool, InService, h]

theorem rollWearAt_of {s : State} {q : SeatNo} {g : GroupNo} {grp : Group} (hq : s.seats[q].group = some g)
    (hg : s.groups[g] = some grp) : s.rollWearAt q = grp.params.rollWear := by
  simp only [State.rollWearAt, State.groupOf, hq, hg]

/-- Settles O51: the charge of the wheel leaves the paired roll, its seat and its group's parameters. -/
theorem dressChargesWheelAndRoll : Obligations.DressChargesWheelAndRoll := by
  intro seat infeed s u w r r' hready ho hw hholds hh hst hr' hu
  have hne : dresserOf w ∉ [seatOfWheel w] := by
    rw [List.mem_singleton]
    exact dresserOf_ne w
  have hdress : dressSeat s (seatOfWheel w) (infeedArg infeed) = u := by
    rw [dressSeat_eq s _ _ r hh hst, infeedArg_eq, ← hr', hu]
  have helse : Elsewhere [seatOfWheel w] s u := by
    rw [hu]
    exact afterDress_elsewhere ho hh (by rw [hr']; rfl) (by rw [hr']; rfl)
  have hroll := holdsTool_congr (helse.seats _ hne)
  have hcmd : dressCommand seat infeed s = if HoldsTool u (dresserOf w)
      then (dressSeat u (dresserOf w) (u.rollWearAt (dresserOf w)), reply .done) else (u, reply .dresserSkipped) := by
    rw [dressCommand_of_wheel hw, if_pos hholds, dressWheel_eq]
    simp only [hdress]
  refine ⟨fun hnone => ?_, fun d d' g grp hsome hd hdst hg hgs hd' => ?_⟩
  · rw [if_neg (hroll.not.2 hnone)] at hcmd
    exact completesAs_of hready (exec_dress s seat infeed) hcmd
  · have hdu : u.holder (dresserOf w) = some d := helse.holder hne hd (by obtain h | h := hdst <;> rw [h] <;> decide)
    obtain ⟨grp', hgs', hparams⟩ := helse.group hgs
    have hgu : u.seats[dresserOf w].group = some g := by rw [helse.seats _ hne, hg]
    rw [if_pos (hroll.2 hsome), dressSeat_eq u _ _ d hdu hdst, rollWearAt_of hgu hgs', hparams, helse.marginOf, ← hd'] at hcmd
    exact completesAs_of hready (exec_dress s seat infeed) hcmd

end Sys2Proof.Proofs

/-! The part charges of a station (R46, R94 step 1), all of them at once: the records counted, the notices raised, and the
seats whose ACTIVE tools ended. -/

namespace Sys2Proof.Proofs

open Sys2Proof.Machine Sys2Proof.Safety Sys2Proof.Laws

/-! ### Raised flags -/

section Flags

variable {s u : State} {q : SeatNo}

theorem told_flags_ne (s : State) (q : SeatNo) (r r' : ToolRecord) {v : SeatNo} (hv : v ≠ q) :
    (told s q r r').notices.seats[v] = s.notices.seats[v] := by
  rw [told, raiseIf_flags_ne _ _ _ hv, raiseIf_flags_ne _ _ _ hv]

/-- What is told at a seat depends on the flags of the seat alone. -/
theorem told_flags_congr (h : u.notices.seats[q] = s.notices.seats[q]) (r r' : ToolRecord) :
    (told u q r r').notices.seats[q] = (told s q r r').notices.seats[q] := by
  simp only [told, raiseIf_flags_self, h]

theorem told_self (s : State) (q : SeatNo) (r : ToolRecord) : told s q r r = s := by
  have hend : ¬ NewEnd r r := by
    rintro (h | h | h | h) <;> rw [h.1] at h <;> cases h.2
  have hwarn : ¬ (r.warned = false ∧ r.warned = true) := fun h => Bool.noConfusion (h.1.symm.trans h.2)
  rw [told, raiseIf_neg _ _ _ hwarn, raiseIf_neg _ _ _ fun h => hend h.1]

theorem told_putRecord (s : State) (x : ToolRecord) (q : SeatNo) (r r' : ToolRecord) :
    told (s.putRecord x) q r r' = (told s q r r').putRecord x := by
  rw [told, raiseIf_putRecord, raiseIf_putRecord, told]

end Flags

/-! ### A record written where it stands -/

section Put

variable {s : State} {r r' : ToolRecord}

/-- Of two records of an ordered table, those of one number are one. -/
theorem eq_of_number (ho : TableOrdered s) {x y : ToolRecord} (hx : x ∈ s.table) (hy : y ∈ s.table)
    (h : x.number = y.number) : x = y := by
  have hfind := find_of_mem ho hx
  rw [h, find_of_mem ho hy] at hfind
  exact (Option.some.inj hfind).symm

/-- A write that keeps the seat of the record written keeps the holder of every other seat. -/
theorem holder_putRecord_ne (ho : TableOrdered s) (hr : r ∈ s.table) (hn : r'.number = r.number) (hseat : r'.seat = r.seat)
    {p : SeatNo} (hp : r.seat ≠ some p) : (s.putRecord r').holder p = s.holder p := by
  have hcongr : ∀ x ∈ s.table, ((if x.number = r'.number then r' else x).seat == some p) = (x.seat == some p) := by
    intro x hx
    split
    · next hxn => rw [eq_of_number ho hx hr (hxn.trans hn), hseat]
    · rfl
  have hkept : ∀ x ∈ s.table, x.seat = some p → (if x.number = r'.number then r' else x) = x := by
    intro x hx hxp
    exact if_neg fun hxn : x.number = r'.number => hp (eq_of_number ho hx hr (hxn.trans hn) ▸ hxp)
  unfold State.holder
  rw [putRecord_table]
  generalize s.table = l at hcongr hkept
  induction l with
  | nil => rfl
  | cons x l ih =>
    have hx := hcongr x List.mem_cons_self
    have htail := ih (fun y hy => hcongr y (List.mem_cons_of_mem x hy)) fun y hy => hkept y (List.mem_cons_of_mem x hy)
    rw [List.map_cons, List.find?_cons, List.find?_cons, hx, htail]
    split
    · next heq => rw [hkept x List.mem_cons_self (beq_iff_eq.1 heq)]
    · rfl

end Put

/-! ### The charge at one seat -/

section Charge

variable {s : State} {st : StationNo} {q : SeatNo} {r : ToolRecord}

/-- The mounted record of the seat, counted (R46, R10). -/
def recounted (s : State) (r : ToolRecord) : ToolRecord := chargedTo (s.marginOf r) (counted r)

theorem partCharge_of_counts (h : CountsAt s st q r) : partCharge s q =
    ((told s q r (recounted s r)).putRecord (recounted s r), decide (NewEnd r (recounted s r) ∧ r.state = .active)) := by
  obtain ⟨_, hholds, hseen, hh, hst⟩ := h
  have hmounted : s.mountedAt q = some r := mountedAt_eq_some.2 ⟨hh, (mounted_iff _).2 hst⟩
  have hcounts : s.counts q = true := by
    rw [State.counts, Bool.and_eq_true, holdsTool_iff]
    exact ⟨hholds, hseen⟩
  simp only [partCharge, hmounted, hcounts, if_true]
  rw [measureWrite_mounted s _ _ _ q (holder_seat hh) hst, chargePart_eq, recompute_charge, ← told_putRecord]
  rfl

theorem partCharge_of_none (hq : q.val / 4 = st.val) (h : ∀ r, ¬ CountsAt s st q r) : partCharge s q = (s, false) := by
  unfold partCharge
  split
  · next r hr =>
    obtain ⟨hh, hm⟩ := mountedAt_eq_some.1 hr
    rw [if_neg]
    rw [State.counts, Bool.and_eq_true, holdsTool_iff]
    exact fun ⟨hholds, hseen⟩ => h r ⟨hq, hholds, hseen, hh, (mounted_iff _).1 hm⟩
  · rfl

theorem countedAt_of_counts (h : CountsAt s st q r) : countedAt s st q r = recounted s r := if_pos h

theorem countedAt_of_not (h : ¬ CountsAt s st q r) : countedAt s st q r = r := if_neg h

/-- A part charge at one seat leaves what counts at another. -/
theorem countsAt_told (ho : TableOrdered s) (h : CountsAt s st q r) {p : SeatNo} (hp : p ≠ q) (x : ToolRecord) :
    CountsAt ((told s q r (recounted s r)).putRecord (recounted s r)) st p x ↔ CountsAt s st p x := by
  have hseat := holder_seat h.2.2.2.1
  have hmem : r ∈ s.table := holder_mem h.2.2.2.1
  have hholder : ((told s q r (recounted s r)).putRecord (recounted s r)).holder p = s.holder p := by
    have htable : ((told s q r (recounted s r)).putRecord (recounted s r)).table = (s.putRecord (recounted s r)).table := by
      rw [putRecord_table, putRecord_table, told, raiseIf_table, raiseIf_table]
    rw [holder_congr_table htable]
    exact holder_putRecord_ne (r' := recounted s r) ho hmem rfl rfl fun hq => hp (Option.some.inj (hseat.symm.trans hq)).symm
  have hseats : ((told s q r (recounted s r)).putRecord (recounted s r)).seats = s.seats := by
    rw [putRecord_seats, told, raiseIf_seats, raiseIf_seats]
  have hwheels : ((told s q r (recounted s r)).putRecord (recounted s r)).wheels = s.wheels := by
    rw [putRecord_wheels, told, raiseIf_wheels, raiseIf_wheels]
  simp only [CountsAt, HoldsTool, InService, hholder, hseats, hwheels]

end Charge

/-! ### The charges of a station -/

/-- The record, counted if it stands mounted at one of the seats. -/
def countedAmong (s : State) (st : StationNo) (qs : List SeatNo) (x : ToolRecord) : ToolRecord :=
  if ∃ q ∈ qs, CountsAt s st q x then recounted s x else x

/-- The part charges of some seats of a station. -/
structure PartCounted (s : State) (st : StationNo) (qs : List SeatNo) (p : State × List SeatNo) : Prop where
  table : p.1.table = s.table.map (countedAmong s st qs)
  rest  : p.1 = { s with table := p.1.table, notices := p.1.notices }
  flags : ∀ q : SeatNo, q ∉ qs ∨ s.holder q = none → p.1.notices.seats[q] = s.notices.seats[q]
  told  : ∀ q ∈ qs, ∀ r, s.holder q = some r →
    p.1.notices.seats[q] = (told s q r (countedAt s st q r)).notices.seats[q]
  ended : ∀ q, q ∈ p.2 ↔ q ∈ qs ∧ ∃ r, CountsAt s st q r ∧ NewEnd r (recounted s r) ∧ r.state = .active

theorem partCounted_nil (s : State) (st : StationNo) : PartCounted s st [] (partCharges s []) where
  table := by
    have hid : countedAmong s st [] = id := funext fun x => if_neg fun ⟨_, hq, _⟩ => List.not_mem_nil hq
    rw [hid, List.map_id]
    rfl
  rest := rfl
  flags _ _ := rfl
  told _ hq := absurd hq List.not_mem_nil
  ended _ := ⟨fun hq => absurd hq List.not_mem_nil, fun hq => absurd hq.1 List.not_mem_nil⟩

/-- At a seat where nothing counts. -/
theorem partCounted_cons_of_none {s : State} {st : StationNo} {q : SeatNo} {qs : List SeatNo} (hq : q.val / 4 = st.val)
    (hnone : ∀ r, ¬ CountsAt s st q r) (hqs : q ∉ qs) (h : PartCounted s st qs (partCharges s qs)) :
    PartCounted s st (q :: qs) (partCharges s (q :: qs)) := by
  have hcons : partCharges s (q :: qs) = partCharges s qs := by
    rw [partCharges, partCharge_of_none hq hnone]
    rfl
  have hamong : countedAmong s st (q :: qs) = countedAmong s st qs := by
    funext x
    unfold countedAmong
    simp only [List.exists_mem_cons_iff, hnone x, false_or]
  rw [hcons]
  refine ⟨by rw [hamong, h.table], h.rest, fun p hp => h.flags p (hp.imp_left fun hp hmem => hp (List.mem_cons_of_mem q hmem)),
    fun p hp r hr => ?_, fun p => ?_⟩
  · obtain rfl | hp := List.mem_cons.1 hp
    · rw [countedAt_of_not (hnone r), told_self, h.flags p (.inl hqs)]
    · exact h.told p hp r hr
  · rw [h.ended, List.mem_cons]
    refine ⟨fun ⟨hp, hx⟩ => ⟨.inr hp, hx⟩, fun ⟨hp, hx⟩ => ⟨hp.resolve_left ?_, hx⟩⟩
    rintro rfl
    obtain ⟨r, hr, _⟩ := hx
    exact hnone r hr

/-- At a seat whose mounted record counts. -/
theorem partCounted_cons_of_counts {s : State} {st : StationNo} {q : SeatNo} {qs : List SeatNo} {r : ToolRecord}
    (ho : TableOrdered s) (hr : CountsAt s st q r) (hqs : q ∉ qs)
    (h : PartCounted ((told s q r (recounted s r)).putRecord (recounted s r)) st qs
      (partCharges ((told s q r (recounted s r)).putRecord (recounted s r)) qs)) :
    PartCounted s st (q :: qs) (partCharges s (q :: qs)) := by
  have hcons : partCharges s (q :: qs) = ((partCharges ((told s q r (recounted s r)).putRecord (recounted s r)) qs).1,
      if NewEnd r (recounted s r) ∧ r.state = .active
      then q :: (partCharges ((told s q r (recounted s r)).putRecord (recounted s r)) qs).2
      else (partCharges ((told s q r (recounted s r)).putRecord (recounted s r)) qs).2) := by
    rw [partCharges, partCharge_of_counts hr]
    simp only [decide_eq_true_eq]
  have hothers := fun p (hp : p ∈ qs) => countsAt_told ho hr (p := p) fun hpq => hqs (hpq ▸ hp)
  have hh := hr.2.2.2.1
  have hqr := holder_seat hh
  have hmem := holder_mem hh
  have honly : ∀ x, CountsAt s st q x → x = r := fun x hx => Option.some.inj (hx.2.2.2.1.symm.trans hh)
  generalize hu : (told s q r (recounted s r)).putRecord (recounted s r) = u at *
  have hmargin : ∀ x, u.marginOf x = s.marginOf x := by
    intro x
    rw [← hu, told]
    simp only [State.marginOf, putRecord_groups, raiseIf_groups]
  have hcount : ∀ x, recounted u x = recounted s x := fun x => by rw [recounted, recounted, hmargin]
  have huflags : ∀ p, p ≠ q → u.notices.seats[p] = s.notices.seats[p] := by
    intro p hp
    rw [← hu, putRecord_notices, told_flags_ne _ _ _ _ hp]
  have hutable : u.table = (s.putRecord (recounted s r)).table := by
    rw [← hu, putRecord_table, putRecord_table, told, raiseIf_table, raiseIf_table]
  have hrest : u = { s with table := u.table, notices := u.notices } := by
    rw [← hu, told, raiseIf, raiseIf]
    split <;> split <;> rfl
  have huholder : ∀ p, p ≠ q → u.holder p = s.holder p := fun p hp => (holder_congr_table hutable p).trans
    (holder_putRecord_ne (r' := recounted s r) ho hmem rfl rfl fun hq => hp (Option.some.inj (hqr.symm.trans hq)).symm)
  rw [hcons]
  refine ⟨?_, ?_, fun p hp => ?_, fun p hp x hx => ?_, fun p => ?_⟩
  · rw [h.table, hutable, putRecord_table, List.map_map]
    refine List.map_congr_left fun x hx => ?_
    simp only [Function.comp_apply]
    by_cases hxr : x.number = (recounted s r).number
    · obtain rfl : x = r := eq_of_number ho hx hmem hxr
      rw [if_pos hxr]
      have hnot : ¬ ∃ p ∈ qs, CountsAt u st p (recounted s x) := fun ⟨p, hp, hc⟩ =>
        hqs (Option.some.inj (hqr.symm.trans (holder_seat (r := recounted s x) hc.2.2.2.1)) ▸ hp)
      rw [countedAmong, if_neg hnot, countedAmong, if_pos ⟨q, List.mem_cons_self, hr⟩]
    · rw [if_neg hxr]
      have hiff : (∃ p ∈ qs, CountsAt u st p x) ↔ ∃ p ∈ q :: qs, CountsAt s st p x := by
        rw [List.exists_mem_cons_iff]
        exact ⟨fun ⟨p, hp, hc⟩ => .inr ⟨p, hp, (hothers p hp x).1 hc⟩, fun hc => hc.elim
          (fun hc => absurd (congrArg ToolRecord.number (honly x hc)) hxr) fun ⟨p, hp, hc⟩ => ⟨p, hp, (hothers p hp x).2 hc⟩⟩
      unfold countedAmong
      simp only [hiff, hcount]
  · refine h.rest.trans ?_
    generalize partCharges u qs = p
    rw [hrest]
  · have hpq : p ≠ q := by
      rintro rfl
      obtain hp | hp := hp
      · exact hp List.mem_cons_self
      · rw [hh] at hp
        cases hp
    rw [h.flags p, huflags p hpq]
    refine hp.imp (fun hp hmem => hp (List.mem_cons_of_mem q hmem)) fun hp => ?_
    rw [huholder p hpq, hp]
  · by_cases hpq : p = q
    · subst hpq
      obtain rfl : r = x := Option.some.inj (hh.symm.trans hx)
      rw [h.flags p (.inl hqs), countedAt_of_counts hr, ← hu, putRecord_notices]
    · have hp := (List.mem_cons.1 hp).resolve_left hpq
      have hcx : countedAt u st p x = countedAt s st p x := by
        change (if _ then recounted u x else x) = if _ then recounted s x else x
        simp only [hothers p hp x, hcount]
      rw [h.told p hp x ((huholder p hpq).trans hx), hcx, told_flags_congr (huflags p hpq)]
  · have hp : p ∈ (partCharges u qs).2 ↔ p ∈ qs ∧ ∃ r, CountsAt s st p r ∧ NewEnd r (recounted s r) ∧ r.state = .active := by
      rw [h.ended]
      refine and_congr_right fun hp => exists_congr fun x => ?_
      rw [hothers p hp x, hcount]
    by_cases hpq : p = q
    · subst hpq
      have hno : p ∉ (partCharges u qs).2 := fun hc => hqs (hp.1 hc).1
      have hiff : (∃ x, CountsAt s st p x ∧ NewEnd x (recounted s x) ∧ x.state = .active)
          ↔ NewEnd r (recounted s r) ∧ r.state = .active :=
        ⟨fun ⟨x, hc, hx⟩ => honly x hc ▸ hx, fun hx => ⟨r, hr, hx⟩⟩
      rw [hiff]
      by_cases hend : NewEnd r (recounted s r) ∧ r.state = .active
      · rw [if_pos hend]
        exact ⟨fun _ => ⟨List.mem_cons_self, hend⟩, fun _ => List.mem_cons_self⟩
      · rw [if_neg hend]
        exact ⟨fun hc => absurd hc hno, fun hc => absurd hc.2 hend⟩
    · have hmemcons : (p ∈ if NewEnd r (recounted s r) ∧ r.state = .active then q :: (partCharges u qs).2
          else (partCharges u qs).2) ↔ p ∈ (partCharges u qs).2 := by
        split
        · rw [List.mem_cons, or_iff_right hpq]
        · rfl
      rw [hmemcons, hp, List.mem_cons, or_iff_right hpq]

theorem partCharges_counted {s : State} {st : StationNo} {qs : List SeatNo} (ho : TableOrdered s) (hqs : qs.Nodup)
    (hst : ∀ q ∈ qs, q.val / 4 = st.val) : PartCounted s st qs (partCharges s qs) := by
  induction qs generalizing s with
  | nil => exact partCounted_nil s st
  | cons q qs ih =>
    obtain ⟨hq, hnodup⟩ := List.nodup_cons.1 hqs
    have htail := fun p (hp : p ∈ qs) => hst p (List.mem_cons_of_mem q hp)
    by_cases hc : ∃ r, CountsAt s st q r
    · obtain ⟨r, hr⟩ := hc
      refine partCounted_cons_of_counts ho hr hq (ih (tableOrdered_of_numbers ho ?_) hnodup htail)
      rw [numbers_putRecord, told, raiseIf_table, raiseIf_table]
    · exact partCounted_cons_of_none (hst q List.mem_cons_self) (fun r hr => hc ⟨r, hr⟩) hq (ih ho hnodup htail)

end Sys2Proof.Proofs

/-! The changes that a part end begins (R94 step 3, R101): what one change leaves at its seat, and a fold of changes at
seats of their own; and O39 from these and the part charges. -/

namespace Sys2Proof.Proofs

open Sys2Proof.Machine Sys2Proof.Safety Sys2Proof.Laws

/-! ### Leaving service -/

section Leaving

variable {s : State} {q : SeatNo} {r : ToolRecord}

/-- A probe check is in flight at the seat. -/
abbrev CheckAt (s : State) (q : SeatNo) : Prop := ∃ w, q = seatOfWheel w ∧ s.wheels[w].check ≠ none

theorem checkAt_seatOfWheel (s : State) (w : WheelNo) : CheckAt s (seatOfWheel w) ↔ s.wheels[w].check ≠ none :=
  ⟨fun ⟨_, hv, hc⟩ => seatOfWheel_injective hv ▸ hc, fun hc => ⟨w, rfl, hc⟩⟩

theorem not_checkAt_dresser (s : State) (h : q.val % 4 ≥ 2) : ¬ CheckAt s q := by
  rintro ⟨w, rfl, _⟩
  exact Nat.not_le.2 (seatOfWheel_lt w) h

theorem pairedWheel_seatOfWheel (w : WheelNo) : pairedWheel (seatOfWheel w) = w := by revert w; decide

theorem closedAt_of_no_cut (grp : Group) (h : ¬ (q.val % 4 < 2 ∧ CutOpen s (pairedWheel q))) : closedAt s q grp r = r := if_neg h

theorem closedAt_of_cut {w : WheelNo} (grp : Group) (h : CutOpen s w) : closedAt s (seatOfWheel w) grp r =
    chargedTo (s.marginOf r) (worn s.wheels[w].accumulator grp.params.nominalLoad r) := by
  simp only [closedAt, pairedWheel_seatOfWheel, seatOfWheel_lt, true_and, if_pos h]

/-- The holder of a seat after it is written with its seat kept. -/
theorem holder_putRecord_same (ho : TableOrdered s) {r' : ToolRecord} (hh : s.holder q = some r) (hn : r'.number = r.number)
    (hseat : r'.seat = r.seat) : (s.putRecord r').holder q = some r' := by
  have hmem := holder_mem hh
  have hqr := holder_seat hh
  have hput : ∀ x ∈ s.table, x.number = r'.number → x = r := fun x hx hxn => eq_of_number ho hx hmem (hxn.trans hn)
  unfold State.holder at hh ⊢
  rw [putRecord_table]
  generalize s.table = l at *
  induction l with
  | nil => cases hh
  | cons x l ih =>
    rw [List.map_cons, List.find?_cons]
    by_cases hxn : x.number = r'.number
    · rw [if_pos hxn, hseat, beq_iff_eq.2 hqr]
    · have hxq : x.seat ≠ some q := by
        intro hxq
        rw [List.find?_cons, beq_iff_eq.2 hxq] at hh
        exact hxn (Option.some.inj hh ▸ hn.symm)
      rw [List.find?_cons, beq_false_of_ne hxq] at hh
      rw [if_neg hxn, beq_false_of_ne hxq]
      exact ih hh (List.mem_of_find?_eq_some hh) fun y hy => hput y (List.mem_cons_of_mem x hy)

/-- What leaving service leaves at a seat of a defined group: its ACTIVE or SUSPECT record, an open cut charged to it, and
the notices. -/
theorem leaveService_closes (ho : TableOrdered s) (hh : s.holder q = some r) (hs : r.state = .active ∨ r.state = .suspect)
    {g : GroupNo} {grp : Group} (hg : s.seats[q].group = some g) (hgs : s.groups[g] = some grp) :
    (leaveService s q).holder q = some (closedAt s q grp r) ∧ (leaveService s q).notices.seats[q]
      = (raiseIf (told s q r (closedAt s q grp r)) (CheckAt s q) q .check).notices.seats[q] := by
  obtain ⟨w, rfl⟩ | hd := seat_cases q
  · by_cases hc : CutOpen s w
    · rw [closedAt_of_cut grp hc]
      generalize hr' : chargedTo (s.marginOf r) (worn s.wheels[w].accumulator grp.params.nominalLoad r) = r'
      rw [leaveService_of_charged s hc hh hs hg hgs hr'.symm]
      constructor
      · refine (holder_congr_table (s := s.putRecord r') ?_ _).trans
          (holder_putRecord_same ho hh (by rw [← hr']; rfl) (by rw [← hr']; rfl))
        rw [setWheel_table, putRecord_table, putRecord_table, raiseIf_table, raiseIf_table, raiseIf_table]
      · rw [setWheel_notices, putRecord_notices]
        exact congrArg (fun u : State => u.notices.seats[seatOfWheel w]) (raiseIf_congr _ _ _ (checkAt_seatOfWheel s w).symm)
    · rw [closedAt_of_no_cut grp (by rw [pairedWheel_seatOfWheel]; exact fun h => hc h.2), leaveService_of_no_cut s hc, told_self]
      refine ⟨(holder_congr_table (raiseIf_table ..) _).trans hh, ?_⟩
      rw [setWheel_notices, raiseIf_congr _ _ _ (checkAt_seatOfWheel s w)]
  · rw [closedAt_of_no_cut grp fun h => Nat.not_le.2 h.1 hd, leaveService_of_dresser s hd, told_self,
      raiseIf_neg _ _ _ (not_checkAt_dresser s hd)]
    exact ⟨hh, rfl⟩

/-- Without a defined group no load can be charged. -/
theorem leaveService_table_of_no_group (hg : ∀ g grp, s.seats[q].group = some g → s.groups[g] ≠ some grp) :
    (leaveService s q).table = s.table := by
  obtain ⟨w, rfl⟩ | hd := seat_cases q
  · by_cases hc : CutOpen s w
    · rw [leaveService_of_cut s hc, setWheel_table, raiseIf_table]
      unfold closeCut
      dsimp only
      split
      · next p _ hp =>
        obtain ⟨grp, hgrp, _⟩ := Option.map_eq_some_iff.1 (hp : s.wheelParams w = some p)
        unfold State.groupOf at hgrp
        split at hgrp
        · next g hsg => exact absurd hgrp (hg g grp hsg)
        · cases hgrp
      · rfl
    · rw [leaveService_of_no_cut s hc, setWheel_table, raiseIf_table]
  · rw [leaveService_of_dresser s hd]

theorem closedAt_seat (grp : Group) : (closedAt s q grp r).seat = r.seat ∧ (closedAt s q grp r).number = r.number
    ∧ (closedAt s q grp r).state = r.state := by
  unfold closedAt
  split <;> exact ⟨rfl, rfl, rfl⟩

/-- The record at a seat that leaves service keeps its number and its state. -/
theorem leaveService_holder (ho : TableOrdered s) (hh : s.holder q = some r) (hs : r.state = .active ∨ r.state = .suspect) :
    ∃ r', (leaveService s q).holder q = some r' ∧ r'.number = r.number ∧ r'.state = r.state := by
  by_cases h : ∃ g grp, s.seats[q].group = some g ∧ s.groups[g] = some grp
  · obtain ⟨g, grp, hg, hgs⟩ := h
    obtain ⟨_, hnumber, hstate⟩ := closedAt_seat (s := s) (q := q) (r := r) grp
    exact ⟨_, (leaveService_closes ho hh hs hg hgs).1, hnumber, hstate⟩
  · have htable := leaveService_table_of_no_group (s := s) (q := q) fun g grp hg hgs => h ⟨g, grp, hg, hgs⟩
    exact ⟨r, (holder_congr_table htable q).trans hh, rfl, rfl⟩

end Leaving

/-! ### One change -/

/-- The service states in which a seat has asked for a tool. -/
abbrev Asks (v : Service) : Prop := v = .changing ∨ v = .waiting

/-- What a change leaves at its seat, whose ACTIVE record is `r`. -/
structure Changed (s t : State) (q : SeatNo) (r : ToolRecord) : Prop where
  record  : ∃ r', t.find r.number = some r' ∧ r'.state = .spent ∧ r'.seat = none
  service : ∀ g grp, s.seats[q].group = some g → s.groups[g] = some grp → Asks t.seats[q].service
  closed  : ∀ g grp r', s.seats[q].group = some g → s.groups[g] = some grp → r' = closedAt s q grp r →
    t.find r.number = some { r' with state := .spent, seat := none }
    ∧ t.notices.seats[q] = (raiseIf (raiseIf (raiseIf (told s q r r') (CheckAt s q) q .check)
        (t.seats[q].service = .changing) q .change) (t.seats[q].service = .waiting) q .wait).notices.seats[q]

section Change

variable {s t u : State} {q : SeatNo} {r : ToolRecord}

/-- Selection of a seat of a defined group says what it has done. -/
theorem select_asks {g : GroupNo} {grp : Group} (hg : s.seats[q].group = some g) (hgs : s.groups[g] = some grp)
    (e : Option Nat) : Asks (select s q e).seats[q].service ∧ (select s q e).notices.seats[q]
      = (raiseIf (raiseIf s ((select s q e).seats[q].service = .changing) q .change)
          ((select s q e).seats[q].service = .waiting) q .wait).notices.seats[q] := by
  cases hc : choose s g grp e with
  | none =>
    have hseats := (select_joinedQueue hg hgs hc).seats
    have hnotices := (select_joinedQueue hg hgs hc).rest
    have hservice : (select s q e).seats[q].service = .waiting := by rw [hseats, set_get_self]
    refine ⟨.inr hservice, ?_⟩
    rw [hservice, raiseIf_neg s q _ Service.noConfusion, raiseIf_pos s q _ rfl, hnotices]
  | some p =>
    have hseats := (select_tookMember hg hgs hc).seats
    have hnotices := (select_tookMember hg hgs hc).rest
    have hservice : (select s q e).seats[q].service = .changing := by rw [hseats, set_get_self]
    refine ⟨.inl hservice, ?_⟩
    rw [hservice, raiseIf_pos s q _ rfl, raiseIf_neg _ q _ Service.noConfusion, hnotices]

theorem beginChange_changed (ho : TableOrdered s) (hh : s.holder q = some r) (hs : r.state = .active) :
    Changed s (beginChange s q) q r := by
  have hleft : TableOrdered (leaveService s q) := tableOrdered_of_numbers ho (leaveService_keepsRest s q).numbers
  have hseats := leaveService_seats s q
  have hgroups := leaveService_groups s q
  have hoff : ∀ r₁, (leaveService s q).holder q = some r₁ → r₁.number = r.number → r₁.state = r.state →
      (beginChange s q).find r.number = some { r₁ with state := .spent, seat := none }
      ∧ beginChange s q = select ((leaveService s q).putRecord { r₁ with state := .spent, seat := none }) q none := by
    intro r₁ hh₁ hn₁ hs₁
    have hchange : beginChange s q = select ((leaveService s q).putRecord { r₁ with state := .spent, seat := none }) q none := by
      rw [beginChange, takeOff_of _ hh₁ (hs₁.trans hs)]
    refine ⟨?_, hchange⟩
    have hfound := find_of_mem hleft (holder_mem hh₁)
    have hput := find_putRecord_same (r := { r₁ with state := .spent, seat := none }) hfound
    rw [hchange, ← hn₁]
    exact select_keepsTaken _ q none _ _ hput RecState.noConfusion
  have hasks : ∀ g grp r₁, s.seats[q].group = some g → s.groups[g] = some grp →
      Asks (select ((leaveService s q).putRecord r₁) q none).seats[q].service
      ∧ (select ((leaveService s q).putRecord r₁) q none).notices.seats[q] = _ := fun g grp r₁ hg hgs =>
    select_asks (s := (leaveService s q).putRecord r₁) (by rw [putRecord_seats, hseats, hg])
      (by rw [putRecord_groups, hgroups, hgs]) none
  obtain ⟨r₁, hh₁, hn₁, hs₁⟩ := leaveService_holder ho hh (.inl hs)
  obtain ⟨hfind, hchange⟩ := hoff r₁ hh₁ hn₁ hs₁
  refine ⟨⟨_, hfind, rfl, rfl⟩, fun g grp hg hgs => ?_, fun g grp r' hg hgs hr' => ?_⟩
  · rw [hchange]
    exact (hasks g grp _ hg hgs).1
  · obtain ⟨hholder, hflags⟩ := leaveService_closes ho hh (.inl hs) hg hgs
    obtain ⟨_, hnumber, hstate⟩ := closedAt_seat (s := s) (q := q) (r := r) grp
    obtain ⟨hfind, hchange⟩ := hoff _ hholder hnumber hstate
    rw [hr', hfind]
    refine ⟨rfl, ?_⟩
    rw [hchange, (hasks g grp _ hg hgs).2]
    simp only [raiseIf_flags_self _ _ q, putRecord_notices, hflags]

/-- What a change has left at its seat, an operation elsewhere leaves. -/
theorem Changed.later {Q : List SeatNo} (h : Changed s t q r) (ht : Elsewhere Q t u) (hq : q ∉ Q) : Changed s u q r := by
  have hfind : ∀ x, t.find r.number = some x → x.state = .spent → x.seat = none → u.find r.number = some x :=
    fun x hx hs hseat => ht.find hx (by rw [hs]; decide) fun p _ hp => by rw [hseat] at hp; cases hp
  have hseat : u.seats[q] = t.seats[q] := ht.seats q hq
  refine ⟨?_, fun g grp hg hgs => ?_, fun g grp r' hg hgs hr' => ?_⟩
  · obtain ⟨r', hr', hs, hn⟩ := h.record
    exact ⟨r', hfind r' hr' hs hn, hs, hn⟩
  · rw [hseat]
    exact h.service g grp hg hgs
  · obtain ⟨hr, hflags⟩ := h.closed g grp r' hg hgs hr'
    refine ⟨hfind _ hr rfl rfl, ?_⟩
    rw [ht.flags q hq, hseat, hflags]

/-- A change is what it is after an operation elsewhere. -/
theorem Changed.earlier {Q : List SeatNo} (h : Changed u t q r) (hu : Elsewhere Q s u) (hq : q ∉ Q) : Changed s t q r := by
  have hseat : u.seats[q] = s.seats[q] := hu.seats q hq
  have hwheel : ∀ w, q = seatOfWheel w → u.wheels[w] = s.wheels[w] := fun w hw => hu.wheels w fun hmem => hq (hw ▸ hmem)
  refine ⟨h.record, fun g grp hg hgs => ?_, fun g grp r' hg hgs hr' => ?_⟩ <;> obtain ⟨grp', hgs', hparams⟩ := hu.group hgs
  · exact h.service g grp' (by rw [hseat, hg]) hgs'
  · have hcheck : CheckAt u q ↔ CheckAt s q := exists_congr fun w => and_congr_right fun hw => by rw [hwheel w hw]
    have hclosed : closedAt u q grp' r = closedAt s q grp r := by
      obtain ⟨w, rfl⟩ | hd := seat_cases q
      · unfold closedAt CutOpen
        simp only [pairedWheel_seatOfWheel, hwheel w rfl, hu.marginOf, hparams]
      · rw [closedAt_of_no_cut _ fun hc => Nat.not_le.2 hc.1 hd, closedAt_of_no_cut _ fun hc => Nat.not_le.2 hc.1 hd]
    obtain ⟨hr, hflags⟩ := h.closed g grp' r' (by rw [hseat, hg]) hgs' (by rw [hclosed, hr'])
    refine ⟨hr, ?_⟩
    rw [hflags]
    simp only [raiseIf_flags_self _ _ q, told_flags_congr (hu.flags q hq), hcheck]

theorem beginChanges_elsewhere (ho : TableOrdered s) (qs : List SeatNo) : Elsewhere qs s (qs.foldl beginChange s) := by
  induction qs generalizing s with
  | nil => exact .refl _ s
  | cons q qs ih =>
    have hstep := (beginChange_elsewhere ho q).mono (Q' := q :: qs) fun p hp => by
      rw [List.mem_singleton.1 hp]
      exact List.mem_cons_self
    exact hstep.trans ((ih (tableOrdered_of_numbers ho (beginChange_keepsRest s q).numbers)).mono
      (List.subset_cons_self q qs))

/-- Each seat of a list without repeats changes as if alone. -/
theorem beginChanges_changed (ho : TableOrdered s) {qs : List SeatNo} (hqs : qs.Nodup) (hq : q ∈ qs)
    (hh : s.holder q = some r) (hs : r.state = .active) : Changed s (qs.foldl beginChange s) q r := by
  induction qs generalizing s with
  | nil => cases hq
  | cons p qs ih =>
    obtain ⟨hp, hnodup⟩ := List.nodup_cons.1 hqs
    have ho' : TableOrdered (beginChange s p) := tableOrdered_of_numbers ho (beginChange_keepsRest s p).numbers
    rw [List.foldl_cons]
    by_cases hpq : q = p
    · subst hpq
      exact (beginChange_changed ho hh hs).later (beginChanges_elsewhere ho' qs) hp
    · have helse := beginChange_elsewhere ho p
      have hmem : q ∉ [p] := fun h => hpq (List.mem_singleton.1 h)
      exact (ih ho' hnodup ((List.mem_cons.1 hq).resolve_left hpq)
        (helse.holder hmem hh (by rw [hs]; decide))).earlier helse hmem

end Change

/-! ### What the changes keep everywhere -/

section Keeps

variable {s : State}

/-- The tool numbers of the table with their parts used. -/
def partsOf (s : State) : List (Nat × Nat) := s.table.map fun r => (r.number, r.partsUsed)

theorem partsOf_putRecord (ho : TableOrdered s) {r r' : ToolRecord} (hr : r ∈ s.table) (hn : r'.number = r.number)
    (hp : r'.partsUsed = r.partsUsed) : partsOf (s.putRecord r') = partsOf s := by
  unfold partsOf
  rw [putRecord_table, List.map_map]
  refine List.map_congr_left fun x hx => ?_
  simp only [Function.comp_apply]
  split
  · next hxn => rw [eq_of_number ho hx hr (hxn.trans hn), hn, hp]
  · rfl

theorem partsOf_congr {t : State} (h : t.table = s.table) : partsOf t = partsOf s := by rw [partsOf, h, partsOf]

theorem partsOf_leaveService (ho : TableOrdered s) (q : SeatNo) : partsOf (leaveService s q) = partsOf s := by
  obtain ⟨w, rfl⟩ | hd := seat_cases q
  · by_cases hc : CutOpen s w
    · rw [leaveService_of_cut s hc]
      refine (partsOf_congr (raiseIf_table ..)).trans ?_
      unfold closeCut
      dsimp only
      split
      · next r p hr hp =>
        have hmem : r ∈ s.table := holder_mem (mountedAt_eq_some.1 hr).1
        obtain ⟨_, _, _, htable⟩ := measureWrite_fields
          (s.setWheel w { s.wheels[w] with accumulator := 0, cutTimer := none }) .charge r
          (chargeWear (s.wheels[w].accumulator + r.wearCarry) p.nominalLoad r)
        exact (partsOf_congr htable).trans (partsOf_putRecord
          (s := s.setWheel w { s.wheels[w] with accumulator := 0, cutTimer := none }) ho hmem rfl rfl)
      · rfl
    · rw [leaveService_of_no_cut s hc]
      exact partsOf_congr (raiseIf_table ..)
  · rw [leaveService_of_dresser s hd]

theorem partsOf_takeOff (ho : TableOrdered s) (q : SeatNo) (expected next : RecState) :
    partsOf (takeOff s q expected next) = partsOf s := by
  unfold takeOff
  split
  · next r hh =>
    split; exacts [partsOf_putRecord (r' := { r with state := next, seat := none }) ho (holder_mem hh) rfl rfl, rfl]
  · rfl

theorem partsOf_select (ho : TableOrdered s) (q : SeatNo) (e : Option Nat) : partsOf (select s q e) = partsOf s := by
  unfold select
  split
  · split
    · split
      · unfold takeMember
        split
        · next r hf =>
          exact partsOf_putRecord (r' := { r with state := .chosen, seat := some q }) ho (find_mem hf) rfl rfl
        · rfl
      · rfl
    · rfl
  · rfl

theorem partsOf_beginChanges (ho : TableOrdered s) (qs : List SeatNo) : partsOf (qs.foldl beginChange s) = partsOf s := by
  induction qs generalizing s with
  | nil => rfl
  | cons q qs ih =>
    have ho₁ := tableOrdered_of_numbers ho (leaveService_keepsRest s q).numbers
    have ho₂ := tableOrdered_of_numbers ho₁ (takeOff_keepsRest _ q .active .spent).numbers
    rw [List.foldl_cons, ih (tableOrdered_of_numbers ho (beginChange_keepsRest s q).numbers), beginChange,
      partsOf_select ho₂, partsOf_takeOff ho₁, partsOf_leaveService ho]

theorem find_of_partsOf {t : State} (h : partsOf t = partsOf s) {n : Nat} {r : ToolRecord} (hf : s.find n = some r) :
    ∃ r', t.find n = some r' ∧ r'.partsUsed = r.partsUsed := by
  have hfind : ∀ u : State, (u.find n).map (fun r => (r.number, r.partsUsed)) = (partsOf u).find? fun p => p.1 == n := by
    intro u
    rw [partsOf, List.find?_map]
    rfl
  have ht := hfind t
  rw [h, ← hfind s, hf] at ht
  obtain ⟨r', hr', hp⟩ := Option.map_eq_some_iff.1 ht
  exact ⟨r', hr', congrArg Prod.snd hp⟩

theorem select_wheels (s : State) (q : SeatNo) (e : Option Nat) : (select s q e).wheels = s.wheels := by
  unfold select takeMember
  split
  · split
    · split
      · split <;> rfl
      · rfl
    · rfl
  · rfl

theorem takeOff_wheels (s : State) (q : SeatNo) (expected next : RecState) :
    (takeOff s q expected next).wheels = s.wheels := by
  unfold takeOff
  split
  · split <;> rfl
  · rfl

/-- The cut-seen flag of the wheel seat is clear. -/
def Unseen (w : WheelNo) (s : State) : Prop := s.wheels[w].cutSeen = false

theorem Unseen.setWheel {w : WheelNo} (h : Unseen w s) (v : WheelNo) {x : Wheel} (hx : x.cutSeen = s.wheels[v].cutSeen ∨ x.cutSeen = false) :
    Unseen w (s.setWheel v x) := by
  unfold Unseen at *
  by_cases hv : w = v
  · subst hv
    rw [setWheel_get]
    exact hx.elim (·.trans h) id
  · rwa [setWheel_get_ne s x hv]

theorem Unseen.leaveService {w : WheelNo} (h : Unseen w s) (q : SeatNo) : Unseen w (Machine.leaveService s q) := by
  have hraise : ∀ (u : State) (p : Prop) [Decidable p] (v : WheelNo) (x : Wheel), Unseen w u → x.cutSeen = false →
      Unseen w ((raiseIf u p q .check).setWheel v x) := fun u p _ v x hu hx =>
    Unseen.setWheel (by rw [Unseen, raiseIf_wheels]; exact hu) v (.inr hx)
  obtain ⟨v, rfl⟩ | hd := seat_cases q
  · by_cases hc : CutOpen s v
    · rw [leaveService_of_cut s hc]
      refine hraise _ _ v _ ?_ rfl
      have hwheel : Unseen w (s.setWheel v { s.wheels[v] with accumulator := 0, cutTimer := none }) :=
        h.setWheel v (.inl rfl)
      unfold closeCut
      dsimp only
      split
      · rw [Unseen, (measureWrite_fields _ _ _ _).2.2.1]
        exact hwheel
      · exact hwheel
    · rw [leaveService_of_no_cut s hc]
      exact hraise _ _ v _ h rfl
  · rwa [leaveService_of_dresser s hd]

/-- A cut-seen flag that is clear stays clear. -/
theorem Unseen.beginChanges {w : WheelNo} (h : Unseen w s) (qs : List SeatNo) : Unseen w (qs.foldl beginChange s) := by
  induction qs generalizing s with
  | nil => exact h
  | cons q qs ih =>
    refine ih ?_
    rw [Unseen, beginChange, select_wheels, takeOff_wheels]
    exact h.leaveService q

end Keeps

end Sys2Proof.Proofs

/-! The invariant that every step keeps (R2, R3, R54, R59, R63, R69, R70, R75, R93, R132, R173), in parts that each speak of
a few components of the state, and weakened while a step is at work: a seat may stand between two of its states, and a
group may have grants to make. Between steps it is the consistency of the part. -/

namespace Sys2Proof.Proofs

open Sys2Proof.Machine Sys2Proof.Safety Sys2Proof.Laws

/-! ### What is claimed of a seat -/

/-- What holds at a seat while a step is at work. -/
inductive Claim where
  /-- Its service state says what stands at it, as between steps. -/
  | sound
  /-- Its ACTIVE record has an ended measure, and its change is to begin. -/
  | ending
  /-- No record names it, and its service state is yet to follow. -/
  | vacated

/-- No record names the seat. -/
def EmptyAt (s : State) (q : SeatNo) : Prop := ∀ r ∈ s.table, r.seat ≠ some q

/-- One record names the seat, and it is as required. -/
def HeldBy (s : State) (q : SeatNo) (P : ToolRecord → Prop) : Prop := ∃ r, Names s r q ∧ P r

/-- A wheel seat out of service: no cut, no probe check, no filter timer. -/
structure Rested (x : Wheel) : Prop where
  phase    : x.phase = .idle
  cutSeen  : x.cutSeen = false
  check    : x.check = none
  loss     : x.loss = none
  overload : x.overload = none
  contact  : x.contact = none

/-- The wheel seat of that number, if it is one, is out of service. -/
def RestedAt (s : State) (q : SeatNo) : Prop := ∀ w, q = seatOfWheel w → Rested s.wheels[w]

/-- The records at a seat, by its service state. -/
structure SeatSound (s : State) (q : SeatNo) : Prop where
  vacant   : s.seats[q].service = .unbound ∨ s.seats[q].service = .waiting → EmptyAt s q
  changing : s.seats[q].service = .changing → HeldBy s q fun r => r.state = .chosen
  running  : s.seats[q].service = .running → HeldBy s q fun r => r.state = .active ∧ ¬ HasEnd r
  due      : s.seats[q].service = .due → s.stations[stationOf q].partOpen = true
    ∧ HeldBy s q fun r => r.state = .active ∧ HasEnd r
  halted   : s.seats[q].service = .halted → q.val % 4 < 2 ∧ HeldBy s q fun r => r.state = .suspect

/-- A claim of a seat holds. -/
def Meets (s : State) (q : SeatNo) : Claim → Prop
  | .sound => SeatSound s q
  | .ending => HoldsTool s q ∧ HeldBy s q fun r => r.state = .active ∧ HasEnd r
  | .vacated => s.seats[q].group ≠ none ∧ EmptyAt s q ∧ RestedAt s q

/-- Every seat is as between steps. -/
def calm : SeatNo → Claim := fun _ => .sound

/-! ### The parts of the invariant -/

/-- Records and groups agree. -/
structure ToolsFit (s : State) : Prop where
  table    : TableSound s
  spent    : ∀ r ∈ s.table, r.state = .spent → HasEnd r
  loose    : ∀ r ∈ s.table, r.group = none → r.warned = false ∧ r.wearCarry = 0
  grouped  : ∀ r ∈ s.table, ∀ g, r.group = some g → ∃ grp, s.groups[g] = some grp ∧ r.number ∈ grp.members
    ∧ r.kind = grp.kind ∧ r.wearCarry < grp.params.nominalLoad
  members  : ∀ (g : GroupNo) (grp : Group), s.groups[g] = some grp → grp.members.Nodup ∧ grp.members.length ≤ 12
    ∧ 1 ≤ grp.params.nominalLoad ∧ ∀ n ∈ grp.members, ∃ r, s.find n = some r ∧ r.group = some g
  params   : ∀ (g : GroupNo) (grp : Group), s.groups[g] = some grp → ParamsSound grp.params
  cursor   : ∀ (g : GroupNo) (grp : Group) (c : Nat), s.groups[g] = some grp → grp.cursor = some c →
    grp.params.policy = .rotate ∧ c < grp.members.length

/-- Groups and seats agree. -/
structure QueuesFit (s : State) (c : SeatNo → Claim) : Prop where
  queue : ∀ (g : GroupNo) (grp : Group), s.groups[g] = some grp → grp.queue.Nodup
    ∧ ∀ q ∈ grp.queue, s.seats[q].service = .waiting ∧ s.seats[q].group = some g ∧ c q = .sound
  bound : ∀ q : SeatNo, c q ≠ .vacated → (s.seats[q].service = .unbound ↔ s.seats[q].group = none)
  kinds : ∀ (q : SeatNo) (g : GroupNo), s.seats[q].group = some g → ∃ grp, s.groups[g] = some grp
    ∧ (grp.kind = .wheel ↔ q.val % 4 < 2) ∧ (c q ≠ .vacated → s.seats[q].service = .waiting → q ∈ grp.queue)

/-- A group that seats wait for has no eligible member, but for the one whose grants are to be made. -/
def ServedBut (late : Option GroupNo) (s : State) : Prop :=
  ∀ (g : GroupNo) (grp : Group), s.groups[g] = some grp → late ≠ some g → grp.queue ≠ [] →
    ∀ n ∈ grp.members, s.eligible g n = false

/-- Records and seats agree. -/
structure SeatsFit (s : State) (c : SeatNo → Claim) : Prop where
  seated : ∀ r ∈ s.table, ∀ q : SeatNo, r.seat = some q → r.group ≠ none ∧ r.group = s.seats[q].group
  meets  : ∀ q, Meets s q (c q)

/-- A wheel seat agrees with its service state, its station and the load scan. -/
structure WheelFits (x : Wheel) (v : Service) (partOpen fault : Bool) : Prop where
  resting  : ¬ ((v = .running ∨ v = .due) ∨ v = .halted) → x.phase = .idle ∧ x.cutSeen = false
  cutTimer : x.cutTimer ≠ none ↔ x.phase = .engage ∨ x.phase = .cut
  phases   : x.phaseTimer ≠ none ↔ x.phase = .engage ∨ x.phase = .settle
  load     : x.accumulator = 0 ∨ x.phase = .cut
  cutSeen  : x.cutSeen = true → partOpen = true
  checks   : x.check ≠ none → (v = .running ∨ v = .due) ∧ x.phase = .idle ∧ fault = false ∧ x.contact = none
  loaded   : (x.loss ≠ none ∨ x.overload ≠ none) → (v = .running ∨ v = .due) ∧ x.phase = .cut ∧ fault = false
  touching : x.contact ≠ none → (v = .running ∨ v = .due) ∧ x.phase = .idle ∧ fault = false

/-- The wheel seat agrees with the rest of the state. -/
def WheelFitsAt (s : State) (w : WheelNo) (x : Wheel) : Prop :=
  WheelFits x s.seats[seatOfWheel w].service s.stations[stationOfWheel w].partOpen s.scan.fault

/-- The watchdog runs outside HOLD, with a period. -/
def WatchdogFits (l : Link) : Prop := l.watchdog ≠ none → l.hold = false ∧ l.period ≠ .off

/-- The invariant while a step is at work: the seats as claimed, and one group's grants perhaps to be made. -/
structure Coherent (s : State) (c : SeatNo → Claim) (late : Option GroupNo) : Prop where
  tools    : ToolsFit s
  queues   : QueuesFit s c
  served   : ServedBut late s
  seats    : SeatsFit s c
  wheels   : ∀ w, WheelFitsAt s w s.wheels[w]
  watchdog : WatchdogFits s.link

theorem coherent_of_consistent {s : State} (h : Consistent s) : Coherent s calm none where
  tools := ⟨h.table, h.spent, h.loose, h.grouped, h.members, h.params, h.cursor⟩
  queues :=
    { queue g grp hg := ⟨(h.queue g grp hg).1, fun q hq => ⟨((h.queue g grp hg).2 q hq).1, ((h.queue g grp hg).2 q hq).2, rfl⟩⟩
      bound q _ := h.bound q
      kinds q g hg := by
        obtain ⟨grp, hgrp, hk, hw⟩ := h.kinds q g hg
        exact ⟨grp, hgrp, hk, fun _ => hw⟩ }
  served g grp hg _ := h.served g grp hg
  seats := ⟨h.seated, fun q => ⟨h.vacant q, h.changing q, h.running q, h.due q, h.halted q⟩⟩
  wheels w := ⟨h.resting w, h.cutTimer w, h.phases w, h.load w, h.cutSeen w, h.checks w, h.loaded w, h.touching w⟩
  watchdog := h.watchdog

theorem consistent_of_coherent {s : State} (h : Coherent s calm none) : Consistent s where
  table := h.tools.table
  spent := h.tools.spent
  loose := h.tools.loose
  grouped := h.tools.grouped
  members := h.tools.members
  params := h.tools.params
  cursor := h.tools.cursor
  queue g grp hg := by
    obtain ⟨hnodup, hq⟩ := h.queues.queue g grp hg
    exact ⟨hnodup, fun q hmem => ⟨(hq q hmem).1, (hq q hmem).2.1⟩⟩
  served g grp hg := h.served g grp hg nofun
  bound q := h.queues.bound q nofun
  kinds q g hg := by
    obtain ⟨grp, hgrp, hk, hw⟩ := h.queues.kinds q g hg
    exact ⟨grp, hgrp, hk, hw nofun⟩
  seated := h.seats.seated
  vacant q := (h.seats.meets q).vacant
  changing q := (h.seats.meets q).changing
  running q := (h.seats.meets q).running
  due q := (h.seats.meets q).due
  halted q := (h.seats.meets q).halted
  resting w := (h.wheels w).resting
  cutTimer w := (h.wheels w).cutTimer
  phases w := (h.wheels w).phases
  load w := (h.wheels w).load
  cutSeen w := (h.wheels w).cutSeen
  checks w := (h.wheels w).checks
  loaded w := (h.wheels w).loaded
  touching w := (h.wheels w).touching
  watchdog := h.watchdog

/-! ### What the invariant does not look at -/

/-- The components that the invariant speaks of are as they were. -/
structure SameParts (s t : State) : Prop where
  table    : t.table = s.table
  groups   : t.groups = s.groups
  seats    : t.seats = s.seats
  wheels   : t.wheels = s.wheels
  partOpen : ∀ st : StationNo, t.stations[st].partOpen = s.stations[st].partOpen
  fault    : t.scan.fault = s.scan.fault
  watchdog : WatchdogFits s.link → WatchdogFits t.link

theorem toolsFit_congr {s t : State} (h : ToolsFit s) (htable : t.table = s.table) (hgroups : t.groups = s.groups) :
    ToolsFit t := by
  obtain ⟨table, spent, loose, grouped, members, params, cursor⟩ := h
  refine ⟨?_, ?_, ?_, ?_, ?_, ?_, ?_⟩
  · rwa [TableSound, TableOrdered, htable]
  · rwa [htable]
  · rwa [htable]
  · rwa [htable, hgroups]
  · simp only [find_congr_table htable]
    rwa [hgroups]
  · rwa [hgroups]
  · rwa [hgroups]

theorem queuesFit_congr {s t : State} {c : SeatNo → Claim} (h : QueuesFit s c) (hgroups : t.groups = s.groups)
    (hseats : t.seats = s.seats) : QueuesFit t c := by
  obtain ⟨queue, bound, kinds⟩ := h
  refine ⟨?_, ?_, ?_⟩
  · rwa [hgroups, hseats]
  · rwa [hseats]
  · rwa [hgroups, hseats]

theorem servedBut_congr {s t : State} {late : Option GroupNo} (h : ServedBut late s) (htable : t.table = s.table)
    (hgroups : t.groups = s.groups) : ServedBut late t := by
  intro g grp hg hl hq n hn
  rw [eligible_congr g (find_congr_table htable n)]
  exact h g grp (by rw [← hgroups, hg]) hl hq n hn

theorem heldBy_congr {s t : State} {q : SeatNo} {P : ToolRecord → Prop} (h : HeldBy s q P) (ht : t.table = s.table) :
    HeldBy t q P := by
  unfold HeldBy Names at *
  rwa [ht]

theorem emptyAt_congr {s t : State} {q : SeatNo} (h : EmptyAt s q) (ht : t.table = s.table) : EmptyAt t q := by
  unfold EmptyAt at *
  rwa [ht]

theorem restedAt_congr {s t : State} {q : SeatNo} (h : RestedAt s q)
    (hw : ∀ w, q = seatOfWheel w → t.wheels[w] = s.wheels[w]) : RestedAt t q := by
  intro w hq
  rw [hw w hq]
  exact h w hq

/-- The claim of a seat looks at the records that name it, its own state, its wheel and its station. -/
theorem meets_of {s t : State} {q : SeatNo} {k : Claim} (h : Meets s q k)
    (hheld : ∀ P, HeldBy s q P → HeldBy t q P) (hempty : EmptyAt s q → EmptyAt t q) (hseat : t.seats[q] = s.seats[q])
    (hpart : t.stations[stationOf q].partOpen = s.stations[stationOf q].partOpen)
    (hw : ∀ w, q = seatOfWheel w → t.wheels[w] = s.wheels[w]) : Meets t q k := by
  cases k with
  | sound =>
    obtain ⟨vacant, changing, running, due, halted⟩ := h
    refine ⟨?_, ?_, ?_, ?_, ?_⟩ <;> rw [hseat]
    · exact fun hv => hempty (vacant hv)
    · exact fun hv => hheld _ (changing hv)
    · exact fun hv => hheld _ (running hv)
    · exact fun hv => ⟨hpart.trans (due hv).1, hheld _ (due hv).2⟩
    · exact fun hv => ⟨(halted hv).1, hheld _ (halted hv).2⟩
  | ending =>
    refine ⟨?_, hheld _ h.2⟩
    rw [HoldsTool, InService, hseat]
    exact h.1
  | vacated => exact ⟨hseat ▸ h.1, hempty h.2.1, restedAt_congr h.2.2 hw⟩

theorem coherent_congr {s t : State} {c : SeatNo → Claim} {late : Option GroupNo} (h : Coherent s c late)
    (ht : SameParts s t) : Coherent t c late where
  tools := toolsFit_congr h.tools ht.table ht.groups
  queues := queuesFit_congr h.queues ht.groups ht.seats
  served := servedBut_congr h.served ht.table ht.groups
  seats := by
    refine ⟨?_, fun q => meets_of (h.seats.meets q) (fun P hP => heldBy_congr hP ht.table)
      (fun hE => emptyAt_congr hE ht.table) (by rw [ht.seats]) (ht.partOpen _) fun w _ => by rw [ht.wheels]⟩
    rw [ht.table, ht.seats]
    exact h.seats.seated
  wheels w := by
    rw [WheelFitsAt, ht.seats, ht.partOpen, ht.fault, ht.wheels]
    exact h.wheels w
  watchdog := ht.watchdog h.watchdog

theorem SameParts.refl (s : State) : SameParts s s := ⟨rfl, rfl, rfl, rfl, fun _ => rfl, rfl, id⟩

/-- A raised notice is not looked at. -/
theorem sameParts_raise (s : State) (q : SeatNo) (n : SeatNotice) : SameParts s (s.raise q n) :=
  ⟨rfl, rfl, rfl, rfl, fun _ => rfl, rfl, id⟩

theorem coherent_raiseIf {s : State} {c : SeatNo → Claim} {late : Option GroupNo} (h : Coherent s c late) (p : Prop)
    [Decidable p] (q : SeatNo) (n : SeatNotice) : Coherent (raiseIf s p q n) c late := by
  unfold raiseIf
  split; exacts [coherent_congr h (sameParts_raise s q n), h]

theorem coherent_weaken {s : State} {c : SeatNo → Claim} (late : Option GroupNo) (h : Coherent s c none) :
    Coherent s c late :=
  ⟨h.tools, h.queues, fun g grp hg _ => h.served g grp hg nofun, h.seats, h.wheels, h.watchdog⟩

end Sys2Proof.Proofs

/-! The part end (R94): the part charges, the flags cleared, and the changes; O39 from them. -/

namespace Sys2Proof.Proofs

open Sys2Proof.Machine Sys2Proof.Safety Sys2Proof.Laws

/-! ### The seats that change -/

theorem eitherOrder_perm (s : State) (later : Bool) (qs : List SeatNo) : (eitherOrder s later qs).Perm qs := by
  unfold eitherOrder
  split
  · split; exacts [.swap _ _ _, .refl _]
  · exact .refl _

theorem changeOrder_perm (s : State) (qs : List SeatNo) : (changeOrder s qs).Perm qs := by
  have hdresser : ∀ q, (seatKind q == .dresser) = !(seatKind q == .wheel) := fun q => by cases seatKind q <;> rfl
  simp only [changeOrder, hdresser]
  exact ((eitherOrder_perm s _ _).append (eitherOrder_perm s _ _)).trans (List.filter_append_perm _ qs)

theorem seatsOf_nodup (st : StationNo) : (seatsOf st).Nodup := by revert st; decide

theorem stationOf_eq_iff (q : SeatNo) (st : StationNo) : stationOf q = st ↔ AtStation q st := by revert q st; decide

/-! ### The state in which the changes begin -/

section Cleared

variable (s : State) (st : StationNo)

theorem clearPart_wheels (w : WheelNo) : (clearPart s st).wheels[w]
    = if stationOfWheel w = st then { s.wheels[w] with cutSeen := false } else s.wheels[w] := by
  have hself : ∀ (u : State) (v : WheelNo), (u.setWheel v { u.wheels[v] with cutSeen := false }).wheels[v]
      = { u.wheels[v] with cutSeen := false } := fun u v => setWheel_get u v _
  have hother : ∀ (u : State) (v a : WheelNo), a ≠ v → (u.setWheel v { u.wheels[v] with cutSeen := false }).wheels[a]
      = u.wheels[a] := fun u v a ha => setWheel_get_ne u _ ha
  have hnodup : (wheelsOf st).Nodup := by revert st; decide
  by_cases hw : stationOfWheel w = st
  · rw [if_pos hw]
    exact foldl_view_of_mem (view := fun (u : State) (a : WheelNo) => u.wheels[a]) (g := fun x => { x with cutSeen := false }) hself hother hnodup
      ((mem_wheelsOf w st).2 hw) _
  · rw [if_neg hw]
    exact foldl_view_of_notMem (view := fun (u : State) (a : WheelNo) => u.wheels[a]) hother
      ((mem_wheelsOf w st).not.2 hw) _

/-- The flags of the part cleared, and two free values drawn. -/
def cleared : State := { clearPart s st with freeCount := (clearPart s st).freeCount + 2 }

theorem cleared_table : (cleared s st).table = s.table := rfl
theorem cleared_seats : (cleared s st).seats = s.seats := rfl
theorem cleared_groups : (cleared s st).groups = s.groups := rfl
theorem cleared_notices : (cleared s st).notices = s.notices := rfl
theorem cleared_cutLines : (cleared s st).cutLines = s.cutLines := rfl
theorem cleared_wheels : (cleared s st).wheels = (clearPart s st).wheels := rfl
theorem cleared_stations :
    (cleared s st).stations = s.stations.set st { s.stations[st] with partOpen := false } := rfl
theorem clearPart_seats : (clearPart s st).seats = s.seats := rfl

/-- The part counted and its flags cleared: the state in which the changes begin. -/
def beforeChanges : State := cleared (partCharges s (seatsOf st)).1 st

/-- The seats that change, in their order. -/
def changingSeats : List SeatNo :=
  changeOrder (clearPart (partCharges s (seatsOf st)).1 st)
    (changesAtPartEnd (clearPart (partCharges s (seatsOf st)).1 st) st (partCharges s (seatsOf st)).2)

theorem endPart_eq : endPart s st = (changingSeats s st).foldl beginChange (beforeChanges s st) := by
  simp only [endPart, changingSeats, beforeChanges, cleared]

variable {s st}

theorem partCounted (ho : TableOrdered s) : PartCounted s st (seatsOf st) (partCharges s (seatsOf st)) :=
  partCharges_counted ho (seatsOf_nodup st) fun q => (mem_seatsOf q st).1

theorem partCharges_seats (ho : TableOrdered s) : (partCharges s (seatsOf st)).1.seats = s.seats := by
  rw [(partCounted ho).rest]

theorem beforeChanges_seats (ho : TableOrdered s) : (beforeChanges s st).seats = s.seats := by
  rw [beforeChanges, cleared_seats, (partCounted ho).rest]

theorem beforeChanges_groups (ho : TableOrdered s) : (beforeChanges s st).groups = s.groups := by
  rw [beforeChanges, cleared_groups, (partCounted ho).rest]

theorem beforeChanges_table (ho : TableOrdered s) :
    (beforeChanges s st).table = s.table.map (countedAmong s st (seatsOf st)) := by
  rw [beforeChanges, cleared_table, (partCounted ho).table]

theorem beforeChanges_notices : (beforeChanges s st).notices = (partCharges s (seatsOf st)).1.notices := by
  rw [beforeChanges, cleared_notices]

theorem beforeChanges_wheels (ho : TableOrdered s) (w : WheelNo) : (beforeChanges s st).wheels[w]
    = if stationOfWheel w = st then { s.wheels[w] with cutSeen := false } else s.wheels[w] := by
  rw [beforeChanges, cleared_wheels, clearPart_wheels, (partCounted ho).rest]

theorem beforeChanges_stations (ho : TableOrdered s) : (beforeChanges s st).stations
    = s.stations.set st { s.stations[st] with partOpen := false } := by
  rw [beforeChanges, cleared_stations, (partCounted ho).rest]

theorem countedAmong_number (qs : List SeatNo) (x : ToolRecord) : (countedAmong s st qs x).number = x.number := by
  unfold countedAmong
  split <;> rfl

theorem countedAmong_seat (qs : List SeatNo) (x : ToolRecord) : (countedAmong s st qs x).seat = x.seat := by
  unfold countedAmong
  split <;> rfl

theorem countedAmong_state (qs : List SeatNo) (x : ToolRecord) : (countedAmong s st qs x).state = x.state := by
  unfold countedAmong
  split <;> rfl

/-- Some seat counts the record if some seat of the station does. -/
theorem countsAtStation_iff (x : ToolRecord) : (∃ q ∈ seatsOf st, CountsAt s st q x) ↔ ∃ q, CountsAt s st q x :=
  ⟨fun ⟨q, _, hc⟩ => ⟨q, hc⟩, fun ⟨q, hc⟩ => ⟨q, (mem_seatsOf q st).2 hc.1, hc⟩⟩

/-- The record of a seat counts at no other. -/
theorem countedAmong_of_holder {q : SeatNo} {r : ToolRecord} (hh : s.holder q = some r) :
    countedAmong s st (seatsOf st) r = countedAt s st q r := by
  have hiff : (∃ p ∈ seatsOf st, CountsAt s st p r) ↔ CountsAt s st q r := by
    rw [countsAtStation_iff]
    refine ⟨fun ⟨p, hc⟩ => ?_, fun hc => ⟨q, hc⟩⟩
    rwa [Option.some.inj ((holder_seat hh).symm.trans (holder_seat hc.2.2.2.1))]
  change (if _ then recounted s r else r) = if _ then recounted s r else r
  simp only [hiff]

theorem beforeChanges_find (ho : TableOrdered s) (n : Nat) :
    (beforeChanges s st).find n = (s.find n).map (countedAmong s st (seatsOf st)) :=
  find_map_table s _ _ (countedAmong_number _) (beforeChanges_table ho) n

theorem beforeChanges_ordered (ho : TableOrdered s) : TableOrdered (beforeChanges s st) := by
  refine tableOrdered_of_numbers ho ?_
  rw [beforeChanges_table ho, List.map_map]
  exact List.map_congr_left fun x _ => countedAmong_number _ x

theorem beforeChanges_holder (ho : TableOrdered s) {q : SeatNo} {r : ToolRecord} (hh : s.holder q = some r) :
    (beforeChanges s st).holder q = some (countedAt s st q r) := by
  have hmap : (beforeChanges s st).holder q = (s.holder q).map (countedAmong s st (seatsOf st)) := by
    unfold State.holder
    rw [beforeChanges_table ho, List.find?_map]
    congr 2
    funext x
    rw [Function.comp_apply, countedAmong_seat]
  rw [hmap, hh, Option.map_some, countedAmong_of_holder hh]

theorem beforeChanges_closedAt (ho : TableOrdered s) (q : SeatNo) (grp : Group) (r : ToolRecord) :
    closedAt (beforeChanges s st) q grp r = closedAt s q grp r := by
  have hphase : (beforeChanges s st).wheels[pairedWheel q].phase = s.wheels[pairedWheel q].phase := by
    rw [beforeChanges_wheels ho]
    split <;> rfl
  have hload : (beforeChanges s st).wheels[pairedWheel q].accumulator = s.wheels[pairedWheel q].accumulator := by
    rw [beforeChanges_wheels ho]
    split <;> rfl
  have hmargin : (beforeChanges s st).marginOf r = s.marginOf r := by
    unfold State.marginOf
    rw [beforeChanges_groups ho]
  unfold closedAt CutOpen
  simp only [hphase, hload, hmargin]

theorem beforeChanges_checkAt (ho : TableOrdered s) (q : SeatNo) : CheckAt (beforeChanges s st) q ↔ CheckAt s q := by
  refine exists_congr fun w => and_congr_right fun _ => ?_
  rw [beforeChanges_wheels ho]
  split <;> rfl

/-- The flags of the seat of a record are told of its count. -/
theorem beforeChanges_flags (ho : TableOrdered s) {q : SeatNo} {r : ToolRecord} (hh : s.holder q = some r) :
    (beforeChanges s st).notices.seats[q] = (told s q r (countedAt s st q r)).notices.seats[q] := by
  rw [beforeChanges_notices]
  by_cases hq : q ∈ seatsOf st
  · exact (partCounted ho).told q hq r hh
  · rw [(partCounted ho).flags q (.inl hq), countedAt_of_not fun hc => hq ((mem_seatsOf q st).2 hc.1), told_self]

/-! ### The changes -/

theorem mem_changingSeats (ho : TableOrdered s) (q : SeatNo) : q ∈ changingSeats s st ↔ AtStation q st
    ∧ (s.seats[q].service = .due ∨ s.seats[q].service = .running
      ∧ ∃ r, CountsAt s st q r ∧ NewEnd r (recounted s r) ∧ r.state = .active) := by
  have hseats : (clearPart (partCharges s (seatsOf st)).1 st).seats = s.seats := by
    rw [clearPart_seats, partCharges_seats ho]
  rw [changingSeats, (changeOrder_perm _ _).mem_iff, changesAtPartEnd, List.mem_filter, mem_seatsOf, hseats]
  refine and_congr_right fun hq => ?_
  rw [Bool.or_eq_true, Bool.and_eq_true, beq_iff_eq, beq_iff_eq, List.contains_iff_mem, (partCounted ho).ended,
    mem_seatsOf, and_iff_right hq]

theorem changingSeats_nodup : (changingSeats s st).Nodup :=
  (changeOrder_perm _ _).nodup_iff.2 ((seatsOf_nodup st).filter _)

/-- The seat of an ACTIVE record changes if the record's change is due. -/
theorem mem_changingSeats_of_active (ho : TableOrdered s) {q : SeatNo} {r : ToolRecord} (hh : s.holder q = some r)
    (hs : r.state = .active) : q ∈ changingSeats s st ↔ EndsAt s st q r := by
  rw [mem_changingSeats ho]
  refine and_congr_right fun _ => or_congr_right (and_congr_right fun _ => ?_)
  exact ⟨fun ⟨x, hc, hx, _⟩ => Option.some.inj (hc.2.2.2.1.symm.trans hh) ▸ ⟨hc, hx⟩, fun ⟨hc, hx⟩ => ⟨r, hc, hx, hs⟩⟩

theorem endPart_elsewhere (ho : TableOrdered s) : Elsewhere (changingSeats s st) (beforeChanges s st) (endPart s st) := by
  rw [endPart_eq]
  exact beginChanges_elsewhere (beforeChanges_ordered ho) _

theorem endPart_changed (ho : TableOrdered s) {q : SeatNo} {r : ToolRecord} (hh : s.holder q = some r) (hs : r.state = .active)
    (he : EndsAt s st q r) : Changed (beforeChanges s st) (endPart s st) q (countedAt s st q r) := by
  rw [endPart_eq]
  refine beginChanges_changed (beforeChanges_ordered ho) changingSeats_nodup ((mem_changingSeats_of_active ho hh hs).2 he)
    (beforeChanges_holder ho hh) ?_
  rw [← countedAmong_of_holder hh, countedAmong_state, hs]

theorem countedAt_number (q : SeatNo) (r : ToolRecord) : (countedAt s st q r).number = r.number := by
  unfold countedAt
  split <;> rfl

end Cleared

/-! ### What a part end leaves -/

section PartEnd

variable {s : State} {st : StationNo}

theorem endPart_partsUsed (ho : TableOrdered s) {n : Nat} {r : ToolRecord} (hf : s.find n = some r) :
    ∃ r', (endPart s st).find n = some r'
      ∧ ((∃ q, CountsAt s st q r) → r'.partsUsed = min 16777215 (r.partsUsed + 1))
      ∧ ((¬ ∃ q, CountsAt s st q r) → r'.partsUsed = r.partsUsed) := by
  have hbefore := beforeChanges_find (st := st) ho n
  rw [hf, Option.map_some] at hbefore
  rw [endPart_eq]
  obtain ⟨r', hr', hp⟩ := find_of_partsOf (partsOf_beginChanges (beforeChanges_ordered ho) (changingSeats s st)) hbefore
  refine ⟨r', hr', fun hc => ?_, fun hc => ?_⟩
  · rw [hp, countedAmong, if_pos ((countsAtStation_iff r).2 hc)]
    rfl
  · rw [hp, countedAmong, if_neg ((countsAtStation_iff r).not.2 hc)]

theorem endPart_asks (ho : TableOrdered s) {q : SeatNo} {r : ToolRecord} (hh : s.holder q = some r) (hs : r.state = .active)
    (he : EndsAt s st q r) :
    (∀ g grp, s.seats[q].group = some g → s.groups[g] = some grp → Asks (endPart s st).seats[q].service)
    ∧ ∃ r', (endPart s st).find r.number = some r' ∧ r'.state = .spent ∧ r'.seat = none := by
  have h := endPart_changed ho hh hs he
  refine ⟨fun g grp hg hgs => h.service g grp ?_ ?_, ?_⟩
  · rw [beforeChanges_seats ho, hg]
  · rw [beforeChanges_groups ho, hgs]
  · rw [← countedAt_number (s := s) (st := st) q r]
    exact h.record

theorem endPart_seats (ho : TableOrdered s) (q : SeatNo) (h : ¬ AtStation q st ∨ s.seats[q].service ≠ .due
    ∧ ∀ r, s.holder q = some r → r.state = .active → ¬ EndsAt s st q r) : (endPart s st).seats[q] = s.seats[q] := by
  rw [(endPart_elsewhere ho).seats q, beforeChanges_seats ho]
  rw [mem_changingSeats ho]
  rintro ⟨hq, hdue | ⟨hrunning, r, hc, hend, hs⟩⟩
  · exact h.elim (· hq) fun h => h.1 hdue
  · exact h.elim (· hq) fun h => h.2 r hc.2.2.2.1 hs ⟨hq, .inr ⟨hrunning, hc, hend⟩⟩

theorem endPart_wheels (ho : TableOrdered s) {w : WheelNo} (h : stationOfWheel w ≠ st) :
    (endPart s st).wheels[w] = s.wheels[w] := by
  rw [(endPart_elsewhere ho).wheels w, beforeChanges_wheels ho, if_neg h]
  rw [mem_changingSeats ho]
  rintro ⟨hq, _⟩
  rw [← stationOf_eq_iff, stationOf_seatOfWheel] at hq
  exact h hq

theorem endPart_cutSeen (ho : TableOrdered s) {w : WheelNo} (h : stationOfWheel w = st) :
    (endPart s st).wheels[w].cutSeen = false := by
  rw [endPart_eq]
  refine Unseen.beginChanges (s := beforeChanges s st) ?_ (changingSeats s st)
  rw [Unseen, beforeChanges_wheels ho, if_pos h]

theorem endPart_partOpen (ho : TableOrdered s) : (endPart s st).stations[st].partOpen = false
    ∧ ∀ v, v ≠ st → (endPart s st).stations[v].partOpen = s.stations[v].partOpen := by
  have hstations : (endPart s st).stations = s.stations.set st { s.stations[st] with partOpen := false } := by
    rw [endPart_eq, (beginChanges_keepsRest (beforeChanges s st) _).stations, beforeChanges_stations ho]
  rw [hstations]
  exact ⟨by rw [set_get_self], fun v hv => by rw [set_get_ne _ _ hv]⟩

theorem endPart_cutLines : (endPart s st).cutLines = s.cutLines := by
  rw [endPart_eq, (beginChanges_keepsRest (beforeChanges s st) _).cutLines, beforeChanges, cleared_cutLines,
    (partCharges_keepsRest s (seatsOf st)).cutLines]

/-- A seat without a record keeps its flags. -/
theorem endPart_flags_of_vacant (h : Consistent s) {q : SeatNo} (hq : s.holder q = none) :
    (endPart s st).notices.seats[q] = s.notices.seats[q] := by
  have ho := h.table.1
  rw [(endPart_elsewhere ho).flags q]
  · rw [beforeChanges_notices]
    exact (partCounted ho).flags q (.inr hq)
  · rw [mem_changingSeats ho]
    rintro ⟨_, hdue | ⟨_, r, hc, _⟩⟩
    · obtain ⟨_, r, hnames, _⟩ := h.due q hdue
      exact List.find?_eq_none.1 hq r hnames.1 (beq_iff_eq.2 hnames.2.1)
    · rw [hc.2.2.2.1] at hq
      cases hq

theorem consistent_due_active (h : Consistent s) {q : SeatNo} {r : ToolRecord} (hdue : s.seats[q].service = .due)
    (hh : s.holder q = some r) : r.state = .active := by
  obtain ⟨_, x, hnames, hx, _⟩ := h.due q hdue
  rwa [hnames.2.2 r (holder_mem hh) (holder_seat hh)]

/-- A record whose change is not due is counted, and told so. -/
theorem endPart_of_not_ended (h : Consistent s) {q : SeatNo} {r : ToolRecord} (hh : s.holder q = some r)
    (hn : ¬ (r.state = .active ∧ EndsAt s st q r)) :
    (endPart s st).find r.number = some (countedAt s st q r)
    ∧ (endPart s st).notices.seats[q] = (told s q r (countedAt s st q r)).notices.seats[q] := by
  have ho := h.table.1
  have hq : q ∉ changingSeats s st := by
    rw [mem_changingSeats ho]
    rintro ⟨hat, hdue | ⟨hrunning, x, hc, hend, hs⟩⟩
    · exact hn ⟨consistent_due_active h hdue hh, hat, .inl hdue⟩
    · obtain rfl := Option.some.inj (hc.2.2.2.1.symm.trans hh)
      exact hn ⟨hs, hat, .inr ⟨hrunning, hc, hend⟩⟩
  have hmem := holder_mem hh
  have hseat := holder_seat hh
  have hstate : r.state ≠ .available := by
    intro ha
    have hsome := (h.table.2 r hmem).seat.1 (by rw [hseat]; rfl)
    rw [ha] at hsome
    obtain hs | hs | hs := hsome <;> cases hs
  have hbefore := beforeChanges_find (st := st) ho r.number
  rw [find_of_mem ho hmem, Option.map_some] at hbefore
  constructor
  · rw [← countedAmong_of_holder hh]
    refine (endPart_elsewhere ho).find hbefore (by rw [countedAmong_state]; exact hstate) fun p hp hps => ?_
    rw [countedAmong_seat, hseat] at hps
    exact hq (Option.some.inj hps ▸ hp)
  · rw [(endPart_elsewhere ho).flags q hq, beforeChanges_flags ho hh]

/-- A record whose change is due is counted, charged with an open cut and SPENT, and its seat told of it all. -/
theorem endPart_of_ended (ho : TableOrdered s) {q : SeatNo} {r r' : ToolRecord} {g : GroupNo} {grp : Group}
    (hh : s.holder q = some r) (hs : r.state = .active) (he : EndsAt s st q r) (hg : s.seats[q].group = some g)
    (hgs : s.groups[g] = some grp) (hr' : r' = closedAt s q grp (countedAt s st q r)) :
    (endPart s st).find r.number = some { r' with state := .spent, seat := none }
    ∧ (endPart s st).notices.seats[q] =
      (raiseIf (raiseIf (raiseIf (told (told s q r (countedAt s st q r)) q (countedAt s st q r) r')
        (CheckAt s q) q .check) ((endPart s st).seats[q].service = .changing) q .change)
        ((endPart s st).seats[q].service = .waiting) q .wait).notices.seats[q] := by
  obtain ⟨hr, hflags⟩ := (endPart_changed ho hh hs he).closed g grp r' (by rw [beforeChanges_seats ho, hg])
    (by rw [beforeChanges_groups ho, hgs]) (by rw [beforeChanges_closedAt ho, hr'])
  rw [countedAt_number] at hr
  refine ⟨hr, hflags.trans ?_⟩
  simp only [raiseIf_flags_self _ _ q, told_flags_congr (beforeChanges_flags (st := st) ho hh), beforeChanges_checkAt ho]

end PartEnd

theorem takePartEnd_eq (st : StationNo) (s : State) : takePartEnd st s =
    if s.stations[st].partOpen = true then endPart (takePendMark s st) st else takePendMark s st := rfl

/-- Settles O39: each conjunct is one of the lemmas above, the mark of the edge taken first. -/
theorem partEndCountsAndChanges : Obligations.PartEndCountsAndChanges := by
  intro st s hn
  refine ⟨fun hp => ?closed, fun ho hp => ?opened⟩
  case closed =>
    rw [exec_partEnd, whenRunning_eq hn, takePartEnd_eq, if_neg (by rw [hp]; decide)]
  case opened =>
    have hexec : exec (.partEnd st) s = .next (commit s (endPart (takePendMark s st) st)) := by
      rw [exec_partEnd, whenRunning_eq hn, takePartEnd_eq, if_pos hp]
    have hm : TableOrdered (takePendMark s st) := ho
    have hkeep : KeepsControl (takePendMark s st) (endPart (takePendMark s st) st) := endPart_keepsControl _ st
    obtain ⟨hclosed, hothers⟩ := endPart_partOpen (st := st) hm
    have hcut := fun w => endPart_cutSeen (st := st) hm (w := w)
    have hwheels := fun w => endPart_wheels (st := st) hm (w := w)
    have hparts := fun n r => endPart_partsUsed (st := st) hm (n := n) (r := r)
    have hasks := fun q r => endPart_asks (st := st) hm (q := q) (r := r)
    have hseats := fun q => endPart_seats (st := st) hm q
    have hlines := endPart_cutLines (s := takePendMark s st) (st := st)
    have hvacant := fun hc q => endPart_flags_of_vacant (s := takePendMark s st) (st := st) hc (q := q)
    have hkept := fun hc q r => endPart_of_not_ended (s := takePendMark s st) (st := st) hc (q := q) (r := r)
    have hended := fun q r g grp r' => endPart_of_ended (st := st) hm (q := q) (r := r) (r' := r') (g := g) (grp := grp)
    generalize endPart (takePendMark s st) st = t at *
    refine ⟨_, hexec, (commit_partOpen s t st).trans hclosed, hcut, hwheels, hparts, hasks, hseats, hkeep.scan, hkeep.link,
      hlines, fun v hv => (commit_partOpen s t v).trans (hothers v hv), fun hc => ?_⟩
    have hcm : Consistent (takePendMark s st) := consistent_of_coherent (coherent_congr (coherent_of_consistent hc)
      ⟨rfl, rfl, rfl, rfl, fun _ => rfl, rfl, id⟩)
    refine ⟨hvacant hcm, fun q r hh => ⟨fun hnot => ?_, fun g grp r' hs he hg hgs hr' => ?_⟩⟩
    · obtain ⟨hfind, hflags⟩ := hkept hcm q r hh hnot
      exact ⟨hfind, hflags.trans (told_flags_congr (s := s) (u := takePendMark s st) rfl _ _)⟩
    · obtain ⟨hfind, hflags⟩ := hended q r g grp r' hh hs he hg hgs hr'
      refine ⟨hfind, hflags.trans ?_⟩
      simp only [raiseIf_flags_self _ _ q, told]
      rfl

end Sys2Proof.Proofs

/-! The parts of the invariant through the named writes: a table rewritten record by record, a group rewritten, a seat's
service state, a wheel seat; first each part, and then the whole. -/

namespace Sys2Proof.Proofs

open Sys2Proof.Machine Sys2Proof.Safety Sys2Proof.Laws

/-! ### Groups alike -/

section Alike

variable {α : Type} {s t : State}

/-- The groups are alike in a projection. -/
def AlikeBy (π : Group → α) (s t : State) : Prop := ∀ g : GroupNo, t.groups[g].map π = s.groups[g].map π

theorem AlikeBy.of_eq (π : Group → α) (h : t.groups = s.groups) : AlikeBy π s t := fun g => by rw [h]

theorem AlikeBy.to {π : Group → α} (h : AlikeBy π s t) {g : GroupNo} {grp : Group} (hg : s.groups[g] = some grp) :
    ∃ grp', t.groups[g] = some grp' ∧ π grp' = π grp := by
  have hp := h g
  rw [hg, Option.map_some] at hp
  exact Option.map_eq_some_iff.1 hp

theorem AlikeBy.back {π : Group → α} (h : AlikeBy π s t) {g : GroupNo} {grp : Group} (hg : t.groups[g] = some grp) :
    ∃ grp', s.groups[g] = some grp' ∧ π grp' = π grp :=
  AlikeBy.to (fun g => (h g).symm) hg

theorem AlikeBy.setGroup {π : Group → α} {g : GroupNo} {grp grp' : Group} (hg : s.groups[g] = some grp)
    (hp : π grp' = π grp) : AlikeBy π s (s.setGroup g (some grp')) := by
  intro h
  by_cases hh : h = g
  · rw [hh, hg, setGroup_groups, set_get_self, Option.map_some, Option.map_some, hp]
  · rw [setGroup_groups, set_get_ne _ _ hh]

end Alike

/-! ### Records and groups -/

/-- A record that agrees with itself and with the parameters of its group. -/
structure RecordFits (s : State) (x : ToolRecord) : Prop where
  sound : RecordSound x
  spent : x.state = .spent → HasEnd x
  loose : x.group = none → x.warned = false ∧ x.wearCarry = 0
  carry : ∀ g grp, x.group = some g → s.groups[g] = some grp → x.wearCarry < grp.params.nominalLoad

/-- The same tool of the same kind and group. -/
structure SameTool (r x : ToolRecord) : Prop where
  number : x.number = r.number
  kind   : x.kind = r.kind
  group  : x.group = r.group

section Tools

variable {s t : State}

theorem ToolsFit.recordFits (h : ToolsFit s) {r : ToolRecord} (hr : r ∈ s.table) : RecordFits s r := by
  refine ⟨h.table.2 r hr, h.spent r hr, h.loose r hr, fun g grp hg hgs => ?_⟩
  obtain ⟨grp', hgs', _, _, hcarry⟩ := h.grouped r hr g hg
  obtain rfl := Option.some.inj (hgs'.symm.trans hgs)
  exact hcarry

/-- The table rewritten record by record, and the groups in their parameters and cursors. -/
theorem toolsFit_of (h : ToolsFit s) {f : ToolRecord → ToolRecord} (hn : ∀ r, (f r).number = r.number)
    (ht : t.table = s.table.map f) (hsame : ∀ r ∈ s.table, SameTool r (f r)) (hfits : ∀ r ∈ s.table, RecordFits t (f r))
    (halike : AlikeBy (fun x => (x.kind, x.members)) s t)
    (hparams : ∀ (g : GroupNo) (grp : Group), t.groups[g] = some grp → ParamsSound grp.params)
    (hcursor : ∀ (g : GroupNo) (grp : Group) (c : Nat), t.groups[g] = some grp → grp.cursor = some c →
      grp.params.policy = .rotate ∧ c < grp.members.length) : ToolsFit t := by
  have hmem : ∀ {P : ToolRecord → Prop}, (∀ r ∈ s.table, P (f r)) → ∀ x ∈ t.table, P x := by
    intro P hP x hx
    rw [ht] at hx
    obtain ⟨r, hr, rfl⟩ := List.mem_map.1 hx
    exact hP r hr
  refine ⟨⟨tableOrdered_of_numbers h.table.1 ?_, hmem fun r hr => (hfits r hr).sound⟩, hmem fun r hr => (hfits r hr).spent,
    hmem fun r hr => (hfits r hr).loose, hmem fun r hr g hg => ?_, fun g grp hg => ?_, hparams, hcursor⟩
  · rw [ht, List.map_map]
    exact List.map_congr_left fun r _ => hn r
  · obtain ⟨grp, hgs, hmember, hkind, _⟩ := h.grouped r hr g ((hsame r hr).group ▸ hg)
    obtain ⟨grp', hgs', heq⟩ := halike.to hgs
    obtain ⟨hk, hm⟩ := Prod.mk.inj heq
    exact ⟨grp', hgs', by rw [hm, hn]; exact hmember, by rw [hk, (hsame r hr).kind, hkind], (hfits r hr).carry g grp' hg hgs'⟩
  · obtain ⟨grp', hgs', heq⟩ := halike.back hg
    obtain ⟨_, hm⟩ := Prod.mk.inj heq
    obtain ⟨hnodup, hlength, _, hall⟩ := h.members g grp' hgs'
    rw [hm] at hnodup hlength hall
    refine ⟨hnodup, hlength, (hparams g grp hg).nominalLoad.1, fun n hn' => ?_⟩
    obtain ⟨r, hf, hr⟩ := hall n hn'
    exact ⟨f r, by rw [find_map_table s t f hn ht, hf, Option.map_some], (hsame r (find_mem hf)).group.trans hr⟩

theorem toolsFit_put (h : ToolsFit s) {r x : ToolRecord} (hr : r ∈ s.table) (hx : SameTool r x) (hfits : RecordFits s x) :
    ToolsFit (s.putRecord x) := by
  refine toolsFit_of (t := s.putRecord x) h (f := fun y => if y.number = x.number then x else y) (fun y => ?_) rfl
    (fun y hy => ?_) (fun y hy => ?_) (.of_eq _ rfl) h.params h.cursor
  · split
    · next hy => exact hy.symm
    · rfl
  · split
    · next hn => rwa [eq_of_number h.table.1 hy hr (hn.trans hx.number)]
    · exact ⟨rfl, rfl, rfl⟩
  · split
    · exact ⟨hfits.sound, hfits.spent, hfits.loose, hfits.carry⟩
    · obtain ⟨hsound, hspent, hloose, hcarry⟩ := h.recordFits hy
      exact ⟨hsound, hspent, hloose, hcarry⟩

/-- A group rewritten in its cursor or its queue. -/
theorem toolsFit_setGroup (h : ToolsFit s) {g : GroupNo} {grp grp' : Group} (hg : s.groups[g] = some grp)
    (hkind : grp'.kind = grp.kind) (hmembers : grp'.members = grp.members) (hparams : grp'.params = grp.params)
    (hcursor : ∀ c, grp'.cursor = some c → grp'.params.policy = .rotate ∧ c < grp'.members.length) :
    ToolsFit (s.setGroup g (some grp')) := by
  have hgroup : ∀ {P : GroupNo → Group → Prop}, (∀ g grp, s.groups[g] = some grp → P g grp) → P g grp' →
      ∀ a x, (s.setGroup g (some grp')).groups[a] = some x → P a x := by
    intro P hs hgrp a x hx
    by_cases ha : a = g
    · subst ha
      rw [setGroup_groups, set_get_self] at hx
      exact Option.some.inj hx ▸ hgrp
    · rw [setGroup_groups, set_get_ne _ _ ha] at hx
      exact hs a x hx
  refine toolsFit_of h (f := id) (fun _ => rfl) (List.map_id _).symm (fun _ _ => ⟨rfl, rfl, rfl⟩) (fun r hr => ?_)
    (.setGroup hg (by rw [hkind, hmembers])) (hgroup h.params (hparams ▸ h.params g grp hg))
    (fun a x c hx => hgroup (P := fun _ x => ∀ c, x.cursor = some c → x.params.policy = .rotate ∧ c < x.members.length)
      (fun a x hx c => h.cursor a x c hx) hcursor a x hx c)
  obtain ⟨hsound, hspent, hloose, hcarry⟩ := h.recordFits hr
  refine ⟨hsound, hspent, hloose, fun a x ha hx => ?_⟩
  refine hgroup (P := fun a x => r.group = some a → r.wearCarry < x.params.nominalLoad) (fun a x hx ha => hcarry a x ha hx)
    (fun ha => ?_) a x hx ha
  rw [hparams]
  exact hcarry g grp ha hg

end Tools

/-! ### Eligibility -/

section Served

variable {s t : State} {late : Option GroupNo}

/-- The groups as they were in members and queue, and no tool newly eligible but in the late group. -/
theorem servedBut_of (h : ServedBut late s) (halike : AlikeBy (fun x => (x.members, x.queue)) s t)
    (helig : ∀ g n, late ≠ some g → t.eligible g n = true → s.eligible g n = true) : ServedBut late t := by
  intro g grp hg hl hq n hn
  obtain ⟨grp', hg', heq⟩ := halike.back hg
  obtain ⟨hm, hqueue⟩ := Prod.mk.inj heq
  rw [← Bool.not_eq_true]
  intro he
  have hnone := h g grp' hg' hl (by rwa [hqueue]) n (by rwa [hm])
  rw [helig g n hl he] at hnone
  cases hnone

theorem eligible_putRecord {r x : ToolRecord} (ho : TableOrdered s) (hr : r ∈ s.table) (hn : x.number = r.number)
    {g : GroupNo} {n : Nat} (he : (s.putRecord x).eligible g n = true) (hx : x.eligibleIn g = true → r.eligibleIn g = true) :
    s.eligible g n = true := by
  have hfound : s.find x.number = some r := hn ▸ find_of_mem ho hr
  by_cases hxn : x.number = n
  · subst hxn
    rw [State.eligible, find_putRecord_same hfound] at he
    rw [State.eligible, hfound]
    exact hx he
  · rwa [eligible_congr g (find_putRecord_ne s hxn)] at he

theorem servedBut_put (h : ServedBut late s) {r x : ToolRecord} (ho : TableOrdered s) (hr : r ∈ s.table)
    (hn : x.number = r.number) (hx : ∀ g, x.eligibleIn g = true → late = some g ∨ r.eligibleIn g = true) :
    ServedBut late (s.putRecord x) :=
  servedBut_of h (.of_eq _ rfl) fun g _ hl he => eligible_putRecord ho hr hn he fun hxe => (hx g hxe).resolve_left hl

theorem servedBut_setGroup (h : ServedBut late s) {g : GroupNo} {grp grp' : Group} (hg : s.groups[g] = some grp)
    (hmembers : grp'.members = grp.members) (hqueue : grp'.queue = grp.queue) :
    ServedBut late (s.setGroup g (some grp')) :=
  servedBut_of h (.setGroup hg (by rw [hmembers, hqueue])) fun _ _ _ he => he

end Served

/-! ### Records at seats -/

section Seats

variable {s : State} {r x : ToolRecord} {p q : SeatNo}

/-- No other record names the seat. -/
def Sole (s : State) (r : ToolRecord) (q : SeatNo) : Prop := ∀ y ∈ s.table, y.seat = some q → y = r

theorem EmptyAt.sole (h : EmptyAt s q) (r : ToolRecord) : Sole s r q := fun y hy hq => absurd hq (h y hy)

theorem heldBy_put_self (hr : r ∈ s.table) (hn : x.number = r.number) (hsole : Sole s r q) {P : ToolRecord → Prop}
    (hq : x.seat = some q) (hP : P x) : HeldBy (s.putRecord x) q P := by
  refine ⟨x, ⟨?_, hq, fun y hy hyq => ?_⟩, hP⟩
  · rw [putRecord_table]
    exact List.mem_map.2 ⟨r, hr, if_pos hn.symm⟩
  · rw [putRecord_table] at hy
    obtain ⟨z, hz, rfl⟩ := List.mem_map.1 hy
    split at hyq
    · next h => rw [if_pos h]
    · next h => exact absurd ((hsole z hz hyq).symm ▸ hn.symm) h

theorem emptyAt_put_self (hn : x.number = r.number) (hsole : Sole s r q) (hq : x.seat ≠ some q) : EmptyAt (s.putRecord x) q := by
  intro y hy hyq
  rw [putRecord_table] at hy
  obtain ⟨z, hz, rfl⟩ := List.mem_map.1 hy
  split at hyq
  · exact hq hyq
  · next h => exact h ((hsole z hz hyq).symm ▸ hn.symm)

theorem heldBy_put_ne (ho : TableOrdered s) (hr : r ∈ s.table) (hn : x.number = r.number) (hrp : r.seat ≠ some p)
    (hxp : x.seat ≠ some p) {P : ToolRecord → Prop} (h : HeldBy s p P) : HeldBy (s.putRecord x) p P := by
  obtain ⟨y, ⟨hy, hyp, hsole⟩, hP⟩ := h
  have hyx : y.number ≠ x.number := fun hyx => hrp (eq_of_number ho hy hr (hyx.trans hn) ▸ hyp)
  refine ⟨y, ⟨?_, hyp, fun z hz hzp => ?_⟩, hP⟩
  · rw [putRecord_table]
    exact List.mem_map.2 ⟨y, hy, if_neg hyx⟩
  · obtain rfl | hz := mem_putRecord hz
    · exact absurd hzp hxp
    · exact hsole z hz hzp

theorem emptyAt_put_ne (hxp : x.seat ≠ some p) (h : EmptyAt s p) : EmptyAt (s.putRecord x) p := by
  intro z hz
  obtain rfl | hz := mem_putRecord hz
  · exact hxp
  · exact h z hz

/-- A seat that neither the old nor the new record names keeps what is claimed of it. -/
theorem meets_put_ne (ho : TableOrdered s) (hr : r ∈ s.table) (hn : x.number = r.number) (hrp : r.seat ≠ some p)
    (hxp : x.seat ≠ some p) {k : Claim} (h : Meets s p k) : Meets (s.putRecord x) p k :=
  meets_of h (fun _ hP => heldBy_put_ne ho hr hn hrp hxp hP) (emptyAt_put_ne hxp) rfl rfl fun _ _ => rfl

end Seats

/-! ### Wheel seats -/

section Wheels

variable {x : Wheel} {v v' : Service} {partOpen fault : Bool}

/-- A wheel seat out of service agrees with every service state. -/
theorem wheelFits_of_rested (h : WheelFits x v partOpen fault) (hx : Rested x) : WheelFits x v' partOpen fault where
  resting _ := ⟨hx.phase, hx.cutSeen⟩
  cutTimer := h.cutTimer
  phases := h.phases
  load := h.load
  cutSeen := h.cutSeen
  checks hc := absurd hx.check hc
  loaded hl := hl.elim (absurd hx.loss) (absurd hx.overload)
  touching hc := absurd hx.contact hc

/-- A wheel seat whose service state holds no tool is out of service. -/
theorem rested_of_wheelFits (h : WheelFits x v partOpen fault) (hv : ¬ ((v = .running ∨ v = .due) ∨ v = .halted)) : Rested x := by
  obtain ⟨hphase, hseen⟩ := h.resting hv
  have hnot : ¬ (v = .running ∨ v = .due) := fun h => hv (.inl h)
  exact ⟨hphase, hseen, not_not.1 fun hc => hnot (h.checks hc).1, not_not.1 fun hc => hnot (h.loaded (.inl hc)).1,
    not_not.1 fun hc => hnot (h.loaded (.inr hc)).1, not_not.1 fun hc => hnot (h.touching hc).1⟩

/-- The service states in which a seat holds a tool agree with one wheel seat, once no check and no filter timer runs. -/
theorem wheelFits_of_quiet (h : WheelFits x v partOpen fault) (hv : (v' = .running ∨ v' = .due) ∨ v' = .halted)
    (hcheck : x.check = none) (hloss : x.loss = none) (hover : x.overload = none) (hcontact : x.contact = none) :
    WheelFits x v' partOpen fault where
  resting hn := absurd hv hn
  cutTimer := h.cutTimer
  phases := h.phases
  load := h.load
  cutSeen := h.cutSeen
  checks hc := absurd hcheck hc
  loaded hl := hl.elim (absurd hloss) (absurd hover)
  touching hc := absurd hcontact hc

theorem wheelFits_in_service (h : WheelFits x v partOpen fault) (hv' : v' = .running ∨ v' = .due) :
    WheelFits x v' partOpen fault where
  resting hn := absurd (.inl hv') hn
  cutTimer := h.cutTimer
  phases := h.phases
  load := h.load
  cutSeen := h.cutSeen
  checks hc := ⟨hv', (h.checks hc).2⟩
  loaded hl := ⟨hv', (h.loaded hl).2⟩
  touching hc := ⟨hv', (h.touching hc).2⟩

theorem rested_rested (x : Wheel) : Rested (rested x) := ⟨rfl, rfl, rfl, rfl, rfl, rfl⟩

end Wheels

end Sys2Proof.Proofs

/-! The whole invariant through the named writes: a record moved with the service state of its seat, a record off every
seat, a wheel seat, a group's cursor, a seat bound and unbound. -/

namespace Sys2Proof.Proofs

open Sys2Proof.Machine Sys2Proof.Safety Sys2Proof.Laws

/-! ### Service states -/

section Service

variable {s : State} {p q : SeatNo} {v : Service}

theorem setService_self (s : State) (q : SeatNo) : s.setService q s.seats[q].service = s := by
  change s.setSeat q s.seats[q] = s
  unfold State.setSeat
  simp

theorem setService_service (s : State) (q : SeatNo) (v : Service) : (s.setService q v).seats[q].service = v := by
  rw [setService_seats, set_get_self]

theorem setService_group (s : State) (q : SeatNo) (v : Service) (p : SeatNo) :
    (s.setService q v).seats[p].group = s.seats[p].group := by
  by_cases hp : p = q
  · subst hp
    rw [setService_seats, set_get_self]
  · rw [setService_seats, set_get_ne _ _ hp]

theorem setService_seat_ne (s : State) (v : Service) (hp : p ≠ q) : (s.setService q v).seats[p] = s.seats[p] :=
  setSeat_get_ne s _ hp

/-- The records at a CHANGING seat. -/
theorem seatSound_of_changing (hs : s.seats[q].service = .changing) (h : HeldBy s q fun r => r.state = .chosen) : SeatSound s q := by
  refine ⟨?_, fun _ => h, ?_, ?_, ?_⟩ <;> rw [hs]
  · exact fun hv => hv.elim Service.noConfusion Service.noConfusion
  all_goals exact Service.noConfusion

theorem seatSound_of_running (hs : s.seats[q].service = .running) (h : HeldBy s q fun r => r.state = .active ∧ ¬ HasEnd r) :
    SeatSound s q := by
  refine ⟨?_, ?_, fun _ => h, ?_, ?_⟩ <;> rw [hs]
  · exact fun hv => hv.elim Service.noConfusion Service.noConfusion
  all_goals exact Service.noConfusion

theorem seatSound_of_due (hs : s.seats[q].service = .due) (hp : s.stations[stationOf q].partOpen = true)
    (h : HeldBy s q fun r => r.state = .active ∧ HasEnd r) : SeatSound s q := by
  refine ⟨?_, ?_, ?_, fun _ => ⟨hp, h⟩, ?_⟩ <;> rw [hs]
  · exact fun hv => hv.elim Service.noConfusion Service.noConfusion
  all_goals exact Service.noConfusion

theorem seatSound_of_halted (hs : s.seats[q].service = .halted) (hq : q.val % 4 < 2)
    (h : HeldBy s q fun r => r.state = .suspect) : SeatSound s q := by
  refine ⟨?_, ?_, ?_, ?_, fun _ => ⟨hq, h⟩⟩ <;> rw [hs]
  · exact fun hv => hv.elim Service.noConfusion Service.noConfusion
  all_goals exact Service.noConfusion

theorem seatSound_of_vacant (hs : s.seats[q].service = .unbound ∨ s.seats[q].service = .waiting) (h : EmptyAt s q) :
    SeatSound s q := by
  refine ⟨fun _ => h, ?_, ?_, ?_, ?_⟩ <;> obtain hs | hs := hs <;> rw [hs] <;> exact Service.noConfusion

end Service

/-! ### Wait queues -/

section Queues

variable {s : State} {c : SeatNo → Claim} {p q : SeatNo} {v : Service} {k : Claim}

/-- The seat is in no wait queue. -/
def InNoQueue (s : State) (q : SeatNo) : Prop := ∀ (g : GroupNo) (grp : Group), s.groups[g] = some grp → q ∉ grp.queue

theorem inNoQueue_of (h : QueuesFit s c) (hq : c q ≠ .sound ∨ s.seats[q].service ≠ .waiting) : InNoQueue s q := by
  intro g grp hg hmem
  obtain ⟨hw, _, hc⟩ := (h.queue g grp hg).2 q hmem
  exact hq.elim (· hc) (· hw)

/-- Groups alike in kind and queue, the seats as they were. -/
theorem queuesFit_of {t : State} (h : QueuesFit s c) (halike : AlikeBy (fun x => (x.kind, x.queue)) s t)
    (hseats : t.seats = s.seats) : QueuesFit t c where
  queue g grp hg := by
    obtain ⟨grp', hg', heq⟩ := halike.back hg
    obtain ⟨_, hq⟩ := Prod.mk.inj heq
    rw [hseats, ← hq]
    exact h.queue g grp' hg'
  bound q := by
    rw [hseats]
    exact h.bound q
  kinds q g hq := by
    rw [hseats] at hq
    obtain ⟨grp, hg, hk, hw⟩ := h.kinds q g hq
    obtain ⟨grp', hg', heq⟩ := halike.to hg
    obtain ⟨hkind, hqueue⟩ := Prod.mk.inj heq
    exact ⟨grp', hg', by rw [hkind]; exact hk, by rw [hqueue, hseats]; exact hw⟩

/-- A seat in no queue takes a service state other than UNBOUND and WAITING. -/
theorem queuesFit_service (h : QueuesFit s c) (hq : InNoQueue s q) (hb : s.seats[q].group ≠ none) (hu : v ≠ .unbound)
    (hw : v ≠ .waiting) (k : Claim) : QueuesFit (s.setService q v) (Function.update c q k) where
  queue g grp hg := by
    obtain ⟨hnodup, hall⟩ := h.queue g grp hg
    refine ⟨hnodup, fun p hp => ?_⟩
    have hpq : p ≠ q := fun hpq => hq g grp hg (hpq ▸ hp)
    rw [setService_seat_ne s v hpq, Function.update_of_ne hpq]
    exact hall p hp
  bound p hp := by
    by_cases hpq : p = q
    · subst hpq
      rw [setService_service, setService_group]
      exact iff_of_false hu hb
    · rw [setService_seat_ne s v hpq]
      rw [Function.update_of_ne hpq] at hp
      exact h.bound p hp
  kinds p g hp := by
    rw [setService_group] at hp
    obtain ⟨grp, hg, hk, hwait⟩ := h.kinds p g hp
    refine ⟨grp, hg, hk, fun hc hs => ?_⟩
    by_cases hpq : p = q
    · subst hpq
      rw [setService_service] at hs
      exact absurd hs hw
    · rw [setService_seat_ne s v hpq] at hs
      rw [Function.update_of_ne hpq] at hc
      exact hwait hc hs

end Queues

/-! ### The whole -/

section Whole

variable {s : State} {c : SeatNo → Claim} {late : Option GroupNo} {q : SeatNo} {r x : ToolRecord} {v : Service} {k : Claim}

theorem Coherent.ordered (h : Coherent s c late) : TableOrdered s := h.tools.table.1

/-- A record at a seat, or put there or taken from there, is rewritten with the service state of the seat. -/
theorem Coherent.move (h : Coherent s c late) (hr : r ∈ s.table) (hsame : SameTool r x) (hfits : RecordFits s x)
    (hseat : ∀ p, p ≠ q → r.seat ≠ some p ∧ x.seat ≠ some p) (hgroup : x.seat = some q → x.group = s.seats[q].group)
    (hb : s.seats[q].group ≠ none) (hq : c q ≠ .sound ∨ s.seats[q].service ≠ .waiting) (hu : v ≠ .unbound)
    (hw : v ≠ .waiting) (helig : ∀ g, x.eligibleIn g = true → late = some g ∨ r.eligibleIn g = true)
    (hwheel : ∀ w, q = seatOfWheel w → WheelFits s.wheels[w] v s.stations[stationOfWheel w].partOpen s.scan.fault)
    (hmeets : Meets ((s.putRecord x).setService q v) q k) :
    Coherent ((s.putRecord x).setService q v) (Function.update c q k) late where
  tools := toolsFit_congr (toolsFit_put h.tools hr hsame hfits) rfl rfl
  queues := queuesFit_service (s := s.putRecord x) (queuesFit_congr h.queues rfl rfl) (inNoQueue_of (queuesFit_congr h.queues rfl rfl) hq) hb hu hw k
  served := servedBut_congr (servedBut_put h.served h.ordered hr hsame.number helig) rfl rfl
  seats := by
    refine ⟨fun y hy p hp => ?_, fun p => ?_⟩
    · rw [setService_group]
      obtain rfl | hy := mem_putRecord hy
      · have hpq : p = q := by_contra fun hpq => (hseat p hpq).2 hp
        subst hpq
        exact ⟨by rw [hgroup hp]; exact hb, hgroup hp⟩
      · exact h.seats.seated y hy p hp
    · by_cases hpq : p = q
      · subst hpq
        rwa [Function.update_self]
      · obtain ⟨hrp, hxp⟩ := hseat p hpq
        rw [Function.update_of_ne hpq]
        exact meets_of (meets_put_ne h.ordered hr hsame.number hrp hxp (h.seats.meets p)) (fun _ hP => heldBy_congr hP rfl)
          (fun hE => emptyAt_congr hE rfl) (setService_seat_ne _ v hpq) rfl fun _ _ => rfl
  wheels w := by
    by_cases hwq : seatOfWheel w = q
    · subst hwq
      rw [WheelFitsAt, setService_service]
      exact hwheel w rfl
    · rw [WheelFitsAt, setService_seat_ne _ v hwq]
      exact h.wheels w
  watchdog := h.watchdog

/-- The same with the service state kept. -/
theorem Coherent.put_at (h : Coherent s c late) (hr : r ∈ s.table) (hsame : SameTool r x) (hfits : RecordFits s x)
    (hseat : ∀ p, p ≠ q → r.seat ≠ some p ∧ x.seat ≠ some p) (hgroup : x.seat = some q → x.group = s.seats[q].group)
    (hb : s.seats[q].group ≠ none) (hu : s.seats[q].service ≠ .unbound) (hw : s.seats[q].service ≠ .waiting)
    (helig : ∀ g, x.eligibleIn g = true → late = some g ∨ r.eligibleIn g = true)
    (hmeets : Meets (s.putRecord x) q k) : Coherent (s.putRecord x) (Function.update c q k) late := by
  have hself : (s.putRecord x).setService q s.seats[q].service = s.putRecord x := setService_self (s.putRecord x) q
  rw [← hself] at hmeets ⊢
  refine h.move hr hsame hfits hseat hgroup hb (.inr hw) hu hw helig (fun w hwq => ?_) hmeets
  subst hwq
  exact h.wheels w

/-- A record off every seat, rewritten there. -/
theorem Coherent.put_off (h : Coherent s c late) (hr : r ∈ s.table) (hsame : SameTool r x) (hfits : RecordFits s x)
    (hrs : r.seat = none) (hxs : x.seat = none)
    (helig : ∀ g, x.eligibleIn g = true → late = some g ∨ r.eligibleIn g = true) : Coherent (s.putRecord x) c late where
  tools := toolsFit_put h.tools hr hsame hfits
  queues := queuesFit_congr h.queues rfl rfl
  served := servedBut_put h.served h.ordered hr hsame.number helig
  seats := by
    refine ⟨fun y hy p hp => ?_, fun p => meets_put_ne h.ordered hr hsame.number (by rw [hrs]; nofun) (by rw [hxs]; nofun)
      (h.seats.meets p)⟩
    obtain rfl | hy := mem_putRecord hy
    · rw [hxs] at hp
      cases hp
    · exact h.seats.seated y hy p hp
  wheels := h.wheels
  watchdog := h.watchdog

/-- The service state of a seat alone. -/
theorem Coherent.service (h : Coherent s c late) (hb : s.seats[q].group ≠ none)
    (hq : c q ≠ .sound ∨ s.seats[q].service ≠ .waiting) (hu : v ≠ .unbound) (hw : v ≠ .waiting)
    (hwheel : ∀ w, q = seatOfWheel w → WheelFits s.wheels[w] v s.stations[stationOfWheel w].partOpen s.scan.fault)
    (hmeets : Meets (s.setService q v) q k) : Coherent (s.setService q v) (Function.update c q k) late where
  tools := toolsFit_congr h.tools rfl rfl
  queues := queuesFit_service h.queues (inNoQueue_of h.queues hq) hb hu hw k
  served := servedBut_congr h.served rfl rfl
  seats := by
    refine ⟨fun y hy p hp => ?_, fun p => ?_⟩
    · rw [setService_group]
      exact h.seats.seated y hy p hp
    · by_cases hpq : p = q
      · subst hpq
        rwa [Function.update_self]
      · rw [Function.update_of_ne hpq]
        exact meets_of (h.seats.meets p) (fun _ hP => heldBy_congr hP rfl) (fun hE => emptyAt_congr hE rfl)
          (setService_seat_ne _ v hpq) rfl fun _ _ => rfl
  wheels w := by
    by_cases hwq : seatOfWheel w = q
    · subst hwq
      rw [WheelFitsAt, setService_service]
      exact hwheel w rfl
    · rw [WheelFitsAt, setService_seat_ne _ v hwq]
      exact h.wheels w
  watchdog := h.watchdog

/-- A wheel seat rewritten: a vacated one stays out of service. -/
theorem Coherent.wheel (h : Coherent s c late) {w : WheelNo} {x : Wheel} (hx : WheelFitsAt s w x)
    (hc : c (seatOfWheel w) ≠ .vacated ∨ Rested x) : Coherent (s.setWheel w x) c late where
  tools := toolsFit_congr h.tools rfl rfl
  queues := queuesFit_congr h.queues rfl rfl
  served := servedBut_congr h.served rfl rfl
  seats := by
    refine ⟨h.seats.seated, fun p => ?_⟩
    have hp := h.seats.meets p
    by_cases hpw : p = seatOfWheel w
    · subst hpw
      cases hk : c (seatOfWheel w) with
      | sound =>
        rw [hk] at hp
        obtain ⟨vacant, changing, running, due, halted⟩ := hp
        exact ⟨vacant, changing, running, due, halted⟩
      | ending =>
        rw [hk] at hp
        exact hp
      | vacated =>
        rw [hk] at hp
        refine ⟨hp.1, hp.2.1, fun w' hw' => ?_⟩
        obtain rfl := seatOfWheel_injective hw'
        rw [setWheel_get]
        exact hc.resolve_left (not_not.2 hk)
    · exact meets_of hp (fun _ hP => heldBy_congr hP rfl) (fun hE => emptyAt_congr hE rfl) rfl rfl
        fun w' hw' => setWheel_get_ne s x fun hww => hpw (hww ▸ hw')
  wheels w' := by
    by_cases hww : w' = w
    · subst hww
      rw [setWheel_get]
      exact hx
    · rw [setWheel_get_ne s x hww]
      exact h.wheels w'
  watchdog := h.watchdog

/-- A group's cursor. -/
theorem Coherent.cursor (h : Coherent s c late) {g : GroupNo} {grp : Group} (hg : s.groups[g] = some grp) {cu : Option Nat}
    (hcu : ∀ i, cu = some i → grp.params.policy = .rotate ∧ i < grp.members.length) :
    Coherent (s.setGroup g (some { grp with cursor := cu })) c late where
  tools := toolsFit_setGroup h.tools hg rfl rfl rfl hcu
  queues := queuesFit_of h.queues (.setGroup hg rfl) rfl
  served := servedBut_setGroup h.served hg rfl rfl
  seats := ⟨h.seats.seated, fun p => meets_of (h.seats.meets p) (fun _ hP => heldBy_congr hP rfl)
    (fun hE => emptyAt_congr hE rfl) rfl rfl fun _ _ => rfl⟩
  wheels := h.wheels
  watchdog := h.watchdog

/-- A claim that a seat has already. -/
theorem Coherent.same (h : Coherent s (Function.update c q k) late) (hk : c q = k) : Coherent s c late := by
  rwa [Function.update_eq_self_iff.2 hk.symm] at h

end Whole

end Sys2Proof.Proofs

/-! The whole invariant through selection (R65 to R68), grants (R70) and the arbiter informed of a tool (R11). -/

namespace Sys2Proof.Proofs

open Sys2Proof.Machine Sys2Proof.Safety Sys2Proof.Laws

section Selection

variable {s : State} {c : SeatNo → Claim} {late : Option GroupNo} {q : SeatNo} {g : GroupNo} {grp : Group}

theorem setGroup_lookup {x : Option Group} {a : GroupNo} {y : Group} (h : (s.setGroup g x).groups[a] = some y) :
    a = g ∧ x = some y ∨ a ≠ g ∧ s.groups[a] = some y := by
  by_cases ha : a = g
  · subst ha
    rw [setGroup_groups, set_get_self] at h
    exact .inl ⟨rfl, h⟩
  · rw [setGroup_groups, set_get_ne _ _ ha] at h
    exact .inr ⟨ha, h⟩

theorem setGroup_get (s : State) (g : GroupNo) (x : Option Group) : (s.setGroup g x).groups[g] = x := set_get_self _ g x

theorem setGroup_get_ne (s : State) {g a : GroupNo} (x : Option Group) (ha : a ≠ g) :
    (s.setGroup g x).groups[a] = s.groups[a] := set_get_ne _ x ha

/-! ### A place in the queue -/

theorem queuesFit_join (h : QueuesFit s c) (hc : c q = .vacated) (hq : s.seats[q].group = some g)
    (hg : s.groups[g] = some grp) :
    QueuesFit ((s.setGroup g (some { grp with queue := grp.queue ++ [q] })).setService q .waiting)
      (Function.update c q .sound) where
  queue a y hy := by
    have hnone := inNoQueue_of h (q := q) (.inl (by rw [hc]; nofun))
    have hothers : ∀ p : SeatNo, p ≠ q → s.seats[p].service = .waiting ∧ s.seats[p].group = some a ∧ c p = .sound →
        (s.setService q .waiting).seats[p].service = .waiting ∧ (s.setService q .waiting).seats[p].group = some a
        ∧ Function.update c q .sound p = .sound := fun p hp hw => by
      rwa [setService_seat_ne s _ hp, Function.update_of_ne hp]
    obtain ⟨rfl, hyg⟩ | ⟨ha, hy⟩ := setGroup_lookup (s := s) hy
    · obtain rfl := Option.some.inj hyg
      obtain ⟨hnodup, hall⟩ := h.queue a grp hg
      refine ⟨List.nodup_append.2 ⟨hnodup, List.nodup_singleton q, ?_⟩, fun p hp => ?_⟩
      · rintro p hp _ hpq rfl
        exact hnone a grp hg (List.mem_singleton.1 hpq ▸ hp)
      · obtain hp | hp := List.mem_append.1 hp
        · exact hothers p (fun hpq => hnone a grp hg (hpq ▸ hp)) (hall p hp)
        · obtain rfl := List.mem_singleton.1 hp
          exact ⟨setService_service s p _, (setService_group s p _ p).trans hq, Function.update_self ..⟩
    · obtain ⟨hnodup, hall⟩ := h.queue a y hy
      exact ⟨hnodup, fun p hp => hothers p (fun hpq => hnone a y hy (hpq ▸ hp)) (hall p hp)⟩
  bound p hp := by
    by_cases hpq : p = q
    · subst hpq
      rw [setService_service, setService_group]
      exact iff_of_false nofun (by rw [setGroup_seats, hq]; nofun)
    · rw [Function.update_of_ne hpq] at hp
      rw [setService_seat_ne _ _ hpq]
      exact h.bound p hp
  kinds p a hp := by
    rw [setService_group] at hp
    obtain ⟨y, hy, hk, hwait⟩ := h.kinds p a hp
    by_cases ha : a = g
    · subst ha
      obtain rfl := Option.some.inj (hy.symm.trans hg)
      refine ⟨_, setGroup_get s a _, hk, fun hcp hw => List.mem_append.2 ?_⟩
      by_cases hpq : p = q
      · exact .inr (List.mem_singleton.2 hpq)
      · rw [setService_seat_ne _ _ hpq] at hw
        rw [Function.update_of_ne hpq] at hcp
        exact .inl (hwait hcp hw)
    · refine ⟨y, (setGroup_get_ne s _ ha).trans hy, hk, fun hcp hw => ?_⟩
      have hpq : p ≠ q := by
        rintro rfl
        exact ha (Option.some.inj (hp.symm.trans hq))
      rw [setService_seat_ne _ _ hpq] at hw
      rw [Function.update_of_ne hpq] at hcp
      exact hwait hcp hw

/-- A vacated seat of a group without an eligible member joins the queue. -/
theorem Coherent.join (h : Coherent s c late) (hc : c q = .vacated) (hq : s.seats[q].group = some g)
    (hg : s.groups[g] = some grp) (hnone : ∀ n ∈ grp.members, s.eligible g n = false) :
    Coherent (joinQueue s q g grp) (Function.update c q .sound) late := by
  have hmeets := h.seats.meets q
  rw [hc] at hmeets
  obtain ⟨_, hempty, hrested⟩ := hmeets
  refine coherent_congr ?_ (sameParts_raise _ q .wait)
  refine ⟨toolsFit_congr (toolsFit_setGroup (grp' := { grp with queue := grp.queue ++ [q] }) h.tools hg rfl rfl rfl
      fun i hi => h.tools.cursor g grp i hg hi) rfl rfl,
    queuesFit_join h.queues hc hq hg, ?_, ⟨fun y hy p hp => ?_, fun p => ?_⟩, fun w => ?_, h.watchdog⟩
  · intro a y hy hl hqueue n hn
    obtain ⟨rfl, hyg⟩ | ⟨ha, hy⟩ := setGroup_lookup (s := s) hy
    · obtain rfl := Option.some.inj hyg
      exact hnone n hn
    · exact h.served a y hy hl hqueue n hn
  · rw [setService_group]
    exact h.seats.seated y hy p hp
  · by_cases hpq : p = q
    · subst hpq
      rw [Function.update_self]
      exact seatSound_of_vacant (.inr (setService_service _ p _)) (emptyAt_congr hempty rfl)
    · rw [Function.update_of_ne hpq]
      exact meets_of (h.seats.meets p) (fun _ hP => heldBy_congr hP rfl) (fun hE => emptyAt_congr hE rfl)
        (setService_seat_ne _ _ hpq) rfl fun _ _ => rfl
  · by_cases hwq : seatOfWheel w = q
    · subst hwq
      exact wheelFits_of_rested (h.wheels w) (hrested w rfl)
    · rw [WheelFitsAt, setService_seat_ne _ _ hwq]
      exact h.wheels w

/-! ### A member taken -/

/-- The group of a seat that is not vacated to nowhere is defined. -/
theorem Coherent.group (h : Coherent s c late) (hq : s.seats[q].group = some g) : ∃ grp, s.groups[g] = some grp := by
  obtain ⟨grp, hg, _⟩ := h.queues.kinds q g hq
  exact ⟨grp, hg⟩

theorem recordFits_moved (hr : RecordFits s r) {v : RecState} {o : Option SeatNo} {cause : Option BreakCause}
    (hsound : RecordSound { r with state := v, seat := o, cause := cause }) (hspent : v = .spent → HasEnd r) :
    RecordFits s { r with state := v, seat := o, cause := cause } := ⟨hsound, hspent, hr.loose, hr.carry⟩

/-- A member chosen for a vacated seat. -/
theorem Coherent.take (h : Coherent s c late) (hc : c q = .vacated) (hq : s.seats[q].group = some g)
    (hg : s.groups[g] = some grp) {e : Option Nat} {i n : Nat} {r : ToolRecord} (hch : choose s g grp e = some (i, n))
    (hf : s.find n = some r) :
    Coherent ((((s.putRecord { r with state := .chosen, seat := some q }).setGroup g (some (grp.moveCursor i))).setService q
      .changing).raise q .change) (Function.update c q .sound) late := by
  have hmeets := h.seats.meets q
  rw [hc] at hmeets
  obtain ⟨hb, hempty, hrested⟩ := hmeets
  obtain ⟨r', hf', ha, hrg, hend⟩ := choose_find hch
  obtain rfl := Option.some.inj (hf'.symm.trans hf)
  have hmem := find_mem hf
  have hfits := h.tools.recordFits hmem
  have hnoseat : r'.seat = none := recordSound_no_seat hfits.sound (by rw [ha]; rfl)
  have hnocause : r'.cause = none := recordSound_no_cause hfits.sound (by rw [ha]; decide) (by rw [ha]; decide)
  have hsound : RecordSound { r' with state := .chosen, seat := some q, cause := r'.cause } :=
    recordSound_moved hfits.sound (by simp) (by simp [hnocause]) fun _ => (ended_isEmpty_iff r').2 hend
  have hmoved := h.move (x := { r' with state := .chosen, seat := some q }) (v := .changing) (k := .sound) hmem ⟨rfl, rfl, rfl⟩
    (recordFits_moved hfits hsound nofun)
    (fun p hp => ⟨by rw [hnoseat]; nofun, fun hps => hp (Option.some.inj hps).symm⟩) (fun _ => hrg.trans hq.symm) hb
    (.inl (by rw [hc]; nofun)) nofun nofun (fun a ha => absurd ((eligibleIn_iff _ a).1 ha).1 nofun)
    (fun w hw => wheelFits_of_rested (h.wheels w) (hrested w hw))
    (seatSound_of_changing (setService_service _ q _) (heldBy_congr
      (heldBy_put_self (x := { r' with state := .chosen, seat := some q }) hmem rfl (hempty.sole r') rfl rfl) rfl))
  have hcursor := hmoved.cursor (g := g) (grp := grp) hg (cu := if grp.params.policy = .rotate then some i else grp.cursor) (by
    intro j hj
    split at hj
    · next hp =>
      obtain ⟨_, hi⟩ := choose_member hch
      exact ⟨hp, Option.some.inj hj ▸ (List.getElem?_eq_some_iff.1 hi).1⟩
    · exact h.tools.cursor g grp j hg hj)
  rw [moveCursor_eq]
  exact coherent_congr hcursor (sameParts_raise _ q .change)

/-- Selection for a vacated seat. -/
theorem Coherent.select (h : Coherent s c late) (hc : c q = .vacated) {e : Option Nat}
    (hnone : ∀ g grp, s.seats[q].group = some g → s.groups[g] = some grp → choose s g grp e = none →
      ∀ n ∈ grp.members, s.eligible g n = false) : Coherent (Machine.select s q e) (Function.update c q .sound) late := by
  have hmeets := h.seats.meets q
  rw [hc] at hmeets
  obtain ⟨g, hq⟩ := Option.ne_none_iff_exists'.1 hmeets.1
  obtain ⟨grp, hg⟩ := h.group hq
  cases hch : choose s g grp e with
  | none =>
    rw [select_of_none hq hg hch]
    exact h.join hc hq hg (hnone g grp hq hg hch)
  | some p =>
    obtain ⟨r, hf, _⟩ := choose_find hch
    rw [select_of_some hq hg hch hf]
    exact h.take hc hq hg hch hf

theorem not_eligible_of_choose_none (hch : choose s g grp none = none) : ∀ n ∈ grp.members, s.eligible g n = false := by
  intro n hn
  rw [← Bool.not_eq_true]
  intro he
  obtain ⟨i, m, hm⟩ := choose_some s g grp none n hn he nofun
  rw [hch] at hm
  cases hm

theorem Coherent.select_any (h : Coherent s c late) (hc : c q = .vacated) :
    Coherent (Machine.select s q none) (Function.update c q .sound) late :=
  h.select hc fun _ _ _ _ => not_eligible_of_choose_none

/-! ### Grants -/

/-- The head of the queue is served: it is vacated. -/
theorem Coherent.pop (h : Coherent s c late) (hg : s.groups[g] = some grp) {rest : List SeatNo} (hqueue : grp.queue = q :: rest) :
    Coherent (s.setGroup g (some { grp with queue := rest })) (Function.update c q .vacated) late := by
  obtain ⟨hnodup, hall⟩ := h.queues.queue g grp hg
  rw [hqueue] at hnodup hall
  obtain ⟨hqrest, hrest⟩ := List.nodup_cons.1 hnodup
  obtain ⟨hw, hqg, hcq⟩ := hall q List.mem_cons_self
  have hmeets := h.seats.meets q
  rw [hcq] at hmeets
  have hothers : ∀ p, p ≠ q → Meets (s.setGroup g (some { grp with queue := rest })) p (c p) := fun p _ =>
    meets_of (h.seats.meets p) (fun _ hP => heldBy_congr hP rfl) (fun hE => emptyAt_congr hE rfl) rfl rfl fun _ _ => rfl
  refine ⟨toolsFit_setGroup h.tools hg rfl rfl rfl fun i hi => h.tools.cursor g grp i hg hi, ⟨?_, ?_, ?_⟩, ?_,
    ⟨h.seats.seated, fun p => ?_⟩, h.wheels, h.watchdog⟩
  · intro a y hy
    obtain ⟨rfl, hyg⟩ | ⟨ha, hy⟩ := setGroup_lookup hy
    · obtain rfl := Option.some.inj hyg
      refine ⟨hrest, fun p hp => ?_⟩
      rw [Function.update_of_ne fun hpq : p = q => hqrest (hpq ▸ hp)]
      exact hall p (List.mem_cons_of_mem q hp)
    · obtain ⟨hnodup, hally⟩ := h.queues.queue a y hy
      refine ⟨hnodup, fun p hp => ?_⟩
      rw [Function.update_of_ne]
      · exact hally p hp
      · rintro rfl
        exact ha (Option.some.inj ((hally p hp).2.1.symm.trans hqg))
  · intro p hp
    exact h.queues.bound p fun hcp => hp (by
      by_cases hpq : p = q
      · rw [hpq, hcq] at hcp
        cases hcp
      · rwa [Function.update_of_ne hpq])
  · intro p a hp
    obtain ⟨y, hy, hk, hwait⟩ := h.queues.kinds p a hp
    have hpq : Function.update c q .vacated p ≠ .vacated → p ≠ q := by
      rintro hcp rfl
      exact hcp (Function.update_self ..)
    by_cases ha : a = g
    · subst ha
      obtain rfl := Option.some.inj (hy.symm.trans hg)
      refine ⟨_, setGroup_get s a _, hk, fun hcp hs => ?_⟩
      have hne := hpq hcp
      rw [Function.update_of_ne hne] at hcp
      have hmem := hwait hcp hs
      rw [hqueue] at hmem
      exact (List.mem_cons.1 hmem).resolve_left hne
    · refine ⟨y, (setGroup_get_ne s _ ha).trans hy, hk, fun hcp hs => ?_⟩
      rw [Function.update_of_ne (hpq hcp)] at hcp
      exact hwait hcp hs
  · intro a y hy hl hne n hn
    obtain ⟨rfl, hyg⟩ | ⟨ha, hy⟩ := setGroup_lookup hy
    · obtain rfl := Option.some.inj hyg
      exact h.served a grp hg hl (by rw [hqueue]; nofun) n hn
    · exact h.served a y hy hl hne n hn
  · by_cases hpq : p = q
    · subst hpq
      rw [Function.update_self]
      refine ⟨by rw [setGroup_seats, hqg]; nofun, hmeets.vacant (.inr hw), fun w hwp => ?_⟩
      subst hwp
      exact rested_of_wheelFits (h.wheels w) (by rw [hw]; rintro ((h | h) | h) <;> cases h)
    · rw [Function.update_of_ne hpq]
      exact hothers p hpq

/-- Where the late group has no queue or no eligible member, no grant is to be made. -/
theorem Coherent.served_all (h : Coherent s c (some g))
    (hg : ∀ grp, s.groups[g] = some grp → grp.queue = [] ∨ s.hasEligible g = false) : Coherent s c none := by
  refine ⟨h.tools, h.queues, fun a y hy _ hne n hn => ?_, h.seats, h.wheels, h.watchdog⟩
  by_cases ha : a = g
  · subst ha
    exact (hg y hy).elim (absurd · hne) fun hnone => hasEligible_false hy hnone n hn
  · exact h.served a y hy (fun hga => ha (Option.some.inj hga).symm) hne n hn

theorem Coherent.grantLoop (h : Coherent s c (some g)) (hg : s.groups[g] = some grp) :
    Coherent (Machine.grantLoop grp.queue.length s g) c none := by
  generalize hl : grp.queue = queue
  induction queue generalizing s grp with
  | nil =>
    exact h.served_all fun y hy => .inl (by rw [Option.some.inj (hy.symm.trans hg), hl])
  | cons q rest ih =>
    cases he : s.hasEligible g with
    | false =>
      rw [grantLoop_of_none he]
      exact h.served_all fun _ _ => .inr he
    | true =>
      obtain ⟨_, hqg, hcq⟩ := (h.queues.queue g grp hg).2 q (by rw [hl]; exact List.mem_cons_self)
      obtain ⟨i, n, r, hch, hf, _, htook⟩ := select_served hg hqg he rest
      rw [List.length_cons, grantLoop_of_head hg hl he]
      have hserved := (h.pop hg hl).select_any (Function.update_self ..)
      rw [Function.update_idem] at hserved
      refine ih (hserved.same hcq) (grp := { grp with
        queue := rest, cursor := if grp.params.policy = .rotate then some i else grp.cursor }) ?_ rfl
      rw [htook.groups, set_get_self]

/-- The grants of the late group leave no grant to be made. -/
theorem Coherent.grant (h : Coherent s c (some g)) : Coherent (Machine.grant s g) c none := by
  cases hg : s.groups[g] with
  | none =>
    have hid : Machine.grant s g = s := by simp only [Machine.grant, hg]
    rw [hid]
    exact h.served_all fun y hy => by rw [hg] at hy; cases hy
  | some grp =>
    have hloop : Machine.grant s g = Machine.grantLoop grp.queue.length s g := by simp only [Machine.grant, hg]
    rw [hloop]
    exact h.grantLoop hg

/-- The group in which a record stands eligible. -/
def lateOf (r : ToolRecord) : Option GroupNo := if r.state = .available ∧ ¬ HasEnd r then r.group else none

theorem eligibleIn_lateOf {r : ToolRecord} (h : r.eligibleIn g = true) : lateOf r = some g := by
  obtain ⟨ha, hg, he⟩ := (eligibleIn_iff r g).1 h
  rw [lateOf, if_pos ⟨ha, he⟩, hg]

/-- The arbiter informed of a record that may have become eligible. -/
theorem Coherent.inform {n : Nat} {r : ToolRecord} (h : Coherent s c (lateOf r)) (hf : s.find n = some r) :
    Coherent (Machine.inform s n) c none := by
  have hid : lateOf r = none → Machine.inform s n = s := by
    intro hl
    simp only [Machine.inform, hf]
    split
    · next g _ =>
      rw [if_neg]
      intro he
      rw [eligibleIn_lateOf he] at hl
      cases hl
    · rfl
  cases hl : lateOf r with
  | none =>
    rw [hid hl]
    rwa [hl] at h
  | some g =>
    rw [hl] at h
    obtain ⟨ha, he⟩ : r.state = .available ∧ ¬ HasEnd r := by
      by_contra hn
      rw [lateOf, if_neg hn] at hl
      cases hl
    have hg : r.group = some g := by rwa [lateOf, if_pos ⟨ha, he⟩] at hl
    have hgrant : Machine.inform s n = Machine.grant s g := by
      simp only [Machine.inform, hf, hg, (eligibleIn_iff r g).2 ⟨ha, hg, he⟩, if_true]
    rw [hgrant]
    exact h.grant

end Selection

end Sys2Proof.Proofs

/-! The record at a seat: who holds it, its measures written where it stands, and taken off; the charges of cuts, parts and
dresses as such writes. -/

namespace Sys2Proof.Proofs

open Sys2Proof.Machine Sys2Proof.Safety Sys2Proof.Laws

/-! ### Who holds a seat -/

section Holder

variable {s : State} {c : SeatNo → Claim} {late : Option GroupNo} {q : SeatNo} {r x : ToolRecord}

theorem HeldBy.of_holder {P : ToolRecord → Prop} (h : HeldBy s q P) (hh : s.holder q = some r) : Sole s r q ∧ P r := by
  obtain ⟨y, hy, hP⟩ := h
  obtain rfl := hy.2.2 r (holder_mem hh) (holder_seat hh)
  exact ⟨hy.2.2, hP⟩

theorem HeldBy.holder {P : ToolRecord → Prop} (h : HeldBy s q P) : ∃ r, s.holder q = some r ∧ Sole s r q ∧ P r := by
  obtain ⟨y, hy, hP⟩ := h
  cases hh : s.holder q with
  | none => exact absurd (beq_iff_eq.2 hy.2.1) (List.find?_eq_none.1 hh y hy.1)
  | some r =>
    obtain rfl := hy.2.2 r (holder_mem hh) (holder_seat hh)
    exact ⟨r, rfl, hy.2.2, hP⟩

theorem EmptyAt.no_holder (h : EmptyAt s q) (hh : s.holder q = some r) : False := h r (holder_mem hh) (holder_seat hh)

/-- The record that holds a seat as between steps, by the service state of the seat. -/
theorem SeatSound.holder_cases (h : SeatSound s q) (hh : s.holder q = some r) : Sole s r q
    ∧ (s.seats[q].service = .changing ∧ r.state = .chosen
      ∨ s.seats[q].service = .running ∧ r.state = .active ∧ ¬ HasEnd r
      ∨ s.seats[q].service = .due ∧ r.state = .active ∧ HasEnd r
      ∨ s.seats[q].service = .halted ∧ r.state = .suspect) := by
  cases hs : s.seats[q].service with
  | unbound => exact ((h.vacant (.inl hs)).no_holder hh).elim
  | waiting => exact ((h.vacant (.inr hs)).no_holder hh).elim
  | changing =>
    obtain ⟨hsole, hr⟩ := (h.changing hs).of_holder hh
    exact ⟨hsole, .inl ⟨rfl, hr⟩⟩
  | running =>
    obtain ⟨hsole, hr⟩ := (h.running hs).of_holder hh
    exact ⟨hsole, .inr (.inl ⟨rfl, hr⟩)⟩
  | due =>
    obtain ⟨hsole, hr⟩ := (h.due hs).2.of_holder hh
    exact ⟨hsole, .inr (.inr (.inl ⟨rfl, hr⟩))⟩
  | halted =>
    obtain ⟨hsole, hr⟩ := (h.halted hs).2.of_holder hh
    exact ⟨hsole, .inr (.inr (.inr ⟨rfl, hr⟩))⟩

theorem Coherent.sound_at (h : Coherent s c late) (hc : c q = .sound) : SeatSound s q := by
  have hmeets := h.seats.meets q
  rwa [hc] at hmeets

theorem Coherent.ending_at (h : Coherent s c late) (hc : c q = .ending) :
    HoldsTool s q ∧ HeldBy s q fun r => r.state = .active ∧ HasEnd r := by
  have hmeets := h.seats.meets q
  rwa [hc] at hmeets

theorem Coherent.vacated_at (h : Coherent s c late) (hc : c q = .vacated) :
    s.seats[q].group ≠ none ∧ EmptyAt s q ∧ RestedAt s q := by
  have hmeets := h.seats.meets q
  rwa [hc] at hmeets

/-- A seat with a record is neither vacated nor UNBOUND nor WAITING, and the record is its only one. -/
theorem Coherent.held (h : Coherent s c late) (hh : s.holder q = some r) : c q ≠ .vacated ∧ Sole s r q
    ∧ s.seats[q].service ≠ .unbound ∧ s.seats[q].service ≠ .waiting := by
  cases hc : c q with
  | sound =>
    obtain ⟨hsole, hcases⟩ := (h.sound_at hc).holder_cases hh
    refine ⟨nofun, hsole, ?_, ?_⟩ <;> obtain ⟨hs, _⟩ | ⟨hs, _⟩ | ⟨hs, _⟩ | ⟨hs, _⟩ := hcases <;> rw [hs] <;> nofun
  | ending =>
    obtain ⟨hholds, hheld⟩ := h.ending_at hc
    refine ⟨nofun, (hheld.of_holder hh).1, ?_, ?_⟩ <;> obtain (hs | hs) | hs := hholds <;> rw [hs] <;> nofun
  | vacated => exact ((h.vacated_at hc).2.1.no_holder hh).elim

theorem Coherent.holder_group (h : Coherent s c late) (hh : s.holder q = some r) :
    s.seats[q].group ≠ none ∧ r.group = s.seats[q].group := by
  obtain ⟨hr, hg⟩ := h.seats.seated r (holder_mem hh) q (holder_seat hh)
  exact ⟨hg ▸ hr, hg⟩

/-- A record written where it stands keeps its number, kind, group, state and seat. -/
structure Remeasured (r x : ToolRecord) : Prop where
  number : x.number = r.number
  kind   : x.kind = r.kind
  group  : x.group = r.group
  state  : x.state = r.state
  seat   : x.seat = r.seat

theorem Remeasured.same (h : Remeasured r x) : SameTool r x := ⟨h.number, h.kind, h.group⟩

theorem not_eligible_of_state {g : GroupNo} (h : r.state ≠ .available) : ¬ r.eligibleIn g = true :=
  fun he => h ((eligibleIn_iff r g).1 he).1

theorem mounted_not_available (hm : r.state.mounted = true) : r.state ≠ .available :=
  fun h => mounted_not_selectable hm (.inl h)

/-- The mounted record of a seat, written where it stands. -/
theorem Coherent.remeasure (h : Coherent s c late) (hh : s.holder q = some r) (hm : r.state.mounted = true)
    (hx : Remeasured r x) (hfits : RecordFits s x) {k : Claim} (hmeets : Meets (s.putRecord x) q k) :
    Coherent (s.putRecord x) (Function.update c q k) late := by
  obtain ⟨_, _, hu, hw⟩ := h.held hh
  obtain ⟨hb, hg⟩ := h.holder_group hh
  have hseat : ∀ p, p ≠ q → r.seat ≠ some p := fun p hp hrp =>
    hp (Option.some.inj (hrp.symm.trans (holder_seat hh)))
  exact h.put_at (holder_mem hh) hx.same hfits (fun p hp => ⟨hseat p hp, hx.seat ▸ hseat p hp⟩)
    (fun _ => hx.group.trans hg) hb hu hw (fun g he => absurd he (not_eligible_of_state (hx.state ▸ mounted_not_available hm))) hmeets

/-- The state and the ends that a claim of a held seat asks of its record stand after the write. -/
theorem Coherent.heldBy_put (h : Coherent s c late) (hh : s.holder q = some r) (hx : Remeasured r x) {P : ToolRecord → Prop}
    (hP : P x) : HeldBy (s.putRecord x) q P := by
  obtain ⟨_, hsole, _, _⟩ := h.held hh
  exact heldBy_put_self (holder_mem hh) hx.number hsole (hx.seat.trans (holder_seat hh)) hP

/-- A mounted record, written where it stands, that a RUNNING seat's change waits for if it has an end. -/
def afterWrite (s : State) (q : SeatNo) (x : ToolRecord) : Claim :=
  if s.seats[q].service = .running ∧ HasEnd x then .ending else .sound

theorem Coherent.remeasure_sound (h : Coherent s c late) (hc : c q = .sound) (hh : s.holder q = some r)
    (hm : r.state.mounted = true) (hx : Remeasured r x) (hfits : RecordFits s x)
    (hdue : s.seats[q].service = .due → HasEnd x) :
    Coherent (s.putRecord x) (Function.update c q (afterWrite s q x)) late := by
  refine h.remeasure hh hm hx hfits ?_
  have hsound := h.sound_at hc
  obtain ⟨_, hcases⟩ := hsound.holder_cases hh
  have hput := fun P => h.heldBy_put hh hx (P := P)
  unfold afterWrite
  obtain ⟨_, hr⟩ | ⟨hs, hr, _⟩ | ⟨hs, hr, _⟩ | ⟨hs, hr⟩ := hcases
  · rw [hr] at hm
    cases hm
  · by_cases he : HasEnd x
    · rw [if_pos ⟨hs, he⟩]
      exact ⟨.inl (.inl hs), hput _ ⟨hx.state.trans hr, he⟩⟩
    · rw [if_neg fun hc => he hc.2]
      exact seatSound_of_running hs (hput _ ⟨hx.state.trans hr, he⟩)
  · rw [if_neg (by rw [hs]; nofun)]
    exact seatSound_of_due hs (hsound.due hs).1 (hput _ ⟨hx.state.trans hr, hdue hs⟩)
  · rw [if_neg (by rw [hs]; nofun)]
    exact seatSound_of_halted hs (hsound.halted hs).1 (hput _ (hx.state.trans hr))

theorem Coherent.remeasure_ending (h : Coherent s c late) (hc : c q = .ending) (hh : s.holder q = some r)
    (hx : Remeasured r x) (hfits : RecordFits s x) (he : HasEnd x) : Coherent (s.putRecord x) c late := by
  obtain ⟨hholds, hheld⟩ := h.ending_at hc
  obtain ⟨_, hr, _⟩ := hheld.of_holder hh
  exact (h.remeasure hh (by rw [hr]; rfl) hx hfits (k := .ending)
    ⟨hholds, h.heldBy_put hh hx ⟨hx.state.trans hr, he⟩⟩).same hc

/-- The record of a seat out of service, taken off it. -/
theorem Coherent.vacate (h : Coherent s c late) (hh : s.holder q = some r) (hrest : RestedAt s q) (hsame : SameTool r x)
    (hfits : RecordFits s x) (hseat : x.seat = none) (hlate : ∀ g, x.eligibleIn g = true → late = some g) :
    Coherent (s.putRecord x) (Function.update c q .vacated) late := by
  obtain ⟨_, hsole, hu, hw⟩ := h.held hh
  obtain ⟨hb, _⟩ := h.holder_group hh
  exact h.put_at (holder_mem hh) hsame hfits
    (fun p hp => ⟨fun hrp => hp (Option.some.inj (hrp.symm.trans (holder_seat hh))), by rw [hseat]; nofun⟩)
    (by rw [hseat]; nofun) hb hu hw (fun g he => .inl (hlate g he))
    ⟨hb, emptyAt_put_self hsame.number hsole (by rw [hseat]; nofun), hrest⟩

end Holder

/-! ### Charges -/

section Charges

variable {s : State} {c : SeatNo → Claim} {late : Option GroupNo} {q : SeatNo} {r x y : ToolRecord}

/-- The measures of a record as a charge writes them: no used value falls, stock does not rise, the limits stand. -/
structure Charge (r y : ToolRecord) : Prop where
  same       : Remeasured r y
  parts      : r.partsUsed ≤ y.partsUsed
  wear       : r.wearUsed ≤ y.wearUsed
  dress      : r.dressUsed ≤ y.dressUsed
  stock      : y.stockNow ≤ r.stockNow
  partsLimit : y.partsLimit = r.partsLimit
  wearLimit  : y.wearLimit = r.wearLimit
  dressLimit : y.dressLimit = r.dressLimit
  stockFloor : y.stockFloor = r.stockFloor

theorem reached_mono {m n : Nat} (h : m ≤ n) (limit : Option Nat) (hm : reached m limit = true) : reached n limit = true := by
  cases limit with
  | none => cases hm
  | some l =>
    rw [reached, decide_eq_true_eq] at *
    omega

/-- A charge ends no fewer measures. -/
theorem hasEnd_charged (h : Charge r y) (hr : r.ended = endedOf r) (he : HasEnd r) (how : RecomputeBy) (margin : Option Nat) :
    HasEnd (recompute how margin y) := by
  change (endedOf y).parts = true ∨ (endedOf y).wear = true ∨ (endedOf y).dress = true ∨ (endedOf y).stock = true
  rw [HasEnd, hr] at he
  refine he.imp (fun he => ?_) (Or.imp (fun he => ?_) (Or.imp (fun he => ?_) fun he => ?_))
  · exact reached_mono h.parts _ (h.partsLimit ▸ he)
  · exact reached_mono h.wear _ (h.wearLimit ▸ he)
  · exact reached_mono h.dress _ (h.dressLimit ▸ he)
  · simp only [endedOf, h.stockFloor] at he ⊢
    split at he
    · exact decide_eq_true (h.stock.trans (of_decide_eq_true he))
    · cases he

theorem charge_worn (hr : RecordSound r) (load nominal : Nat) : Charge r (worn load nominal r) :=
  ⟨⟨rfl, rfl, rfl, rfl, rfl⟩, le_rfl, le_min hr.wear.1 (Nat.le_add_right _ _), le_rfl, le_rfl, rfl, rfl, rfl, rfl⟩

theorem charge_dressed (hr : RecordSound r) (stock : Nat) : Charge r (dressed stock r) :=
  ⟨⟨rfl, rfl, rfl, rfl, rfl⟩, le_rfl, le_rfl, le_min hr.dress.1 (Nat.le_add_right _ _), Nat.sub_le _ _, rfl, rfl, rfl, rfl⟩

theorem charge_counted (hr : RecordSound r) : Charge r (counted r) :=
  ⟨⟨rfl, rfl, rfl, rfl, rfl⟩, le_min hr.parts.1 (Nat.le_add_right _ _), le_rfl, le_rfl, le_rfl, rfl, rfl, rfl, rfl⟩

theorem Remeasured.recomputed (h : Remeasured r y) (how : RecomputeBy) (margin : Option Nat) :
    Remeasured r (recompute how margin y) := ⟨h.number, h.kind, h.group, h.state, h.seat⟩

/-- A mounted record after a charge. -/
structure ChargedTo (s : State) (r x : ToolRecord) : Prop where
  same : Remeasured r x
  fits : RecordFits s x
  ends : HasEnd r → HasEnd x

theorem Coherent.chargedTo (h : Coherent s c late) (hh : s.holder q = some r) (hm : r.state.mounted = true)
    (hy : Charge r y) (margin : Option Nat) (hsound : RecordSound (recompute .charge margin y))
    (hcarry : ∀ g grp, s.seats[q].group = some g → s.groups[g] = some grp → y.wearCarry < grp.params.nominalLoad) :
    ChargedTo s r (recompute .charge margin y) := by
  obtain ⟨hb, hg⟩ := h.holder_group hh
  have hsame := hy.same.recomputed .charge margin
  refine ⟨hsame, ⟨hsound, fun hs => ?_, fun hn => ?_, fun g grp hxg hgs => hcarry g grp ?_ hgs⟩, fun he =>
    hasEnd_charged hy (h.tools.table.2 r (holder_mem hh)).ended he .charge margin⟩
  · rw [hsame.state] at hs
    rw [hs] at hm
    cases hm
  · rw [hsame.group, hg] at hn
    exact absurd hn hb
  · rw [← hg, ← hsame.group, hxg]

theorem Coherent.carry_lt (h : Coherent s c late) (hh : s.holder q = some r) {g : GroupNo} {grp : Group}
    (hg : s.seats[q].group = some g) (hgs : s.groups[g] = some grp) : r.wearCarry < grp.params.nominalLoad :=
  (h.tools.recordFits (holder_mem hh)).carry g grp ((h.holder_group hh).2.trans hg) hgs

theorem Coherent.chargedTo_worn (h : Coherent s c late) (hh : s.holder q = some r) (hm : r.state.mounted = true)
    {g : GroupNo} {grp : Group} (hg : s.seats[q].group = some g) (hgs : s.groups[g] = some grp) (load : Nat)
    (margin : Option Nat) : ChargedTo s r (Safety.chargedTo margin (worn load grp.params.nominalLoad r)) := by
  have hr := h.tools.table.2 r (holder_mem hh)
  rw [← recompute_charge]
  refine h.chargedTo hh hm (charge_worn hr load _) margin ?_ fun g' grp' hg' hgs' => ?_
  · rw [← chargeWear_eq]
    exact recordSound_worn hr hm _ _ _ _
  · obtain rfl := Option.some.inj (hg'.symm.trans hg)
    obtain rfl := Option.some.inj (hgs'.symm.trans hgs)
    exact Nat.mod_lt _ (h.tools.params g' grp' hgs).nominalLoad.1

theorem Coherent.chargedTo_counted (h : Coherent s c late) (hh : s.holder q = some r) (hm : r.state.mounted = true)
    (margin : Option Nat) : ChargedTo s r (recompute .charge margin (chargePart r)) := by
  have hr := h.tools.table.2 r (holder_mem hh)
  exact h.chargedTo hh hm (charge_counted hr) margin (recordSound_counted hr hm _ _) fun _ _ hg hgs => h.carry_lt hh hg hgs

theorem Coherent.chargedTo_dressed (h : Coherent s c late) (hh : s.holder q = some r) (hm : r.state.mounted = true)
    (stock : Nat) (margin : Option Nat) : ChargedTo s r (recompute .charge margin (chargeDress stock r)) := by
  have hr := h.tools.table.2 r (holder_mem hh)
  exact h.chargedTo hh hm (charge_dressed hr stock) margin (recordSound_dressed hr hm _ _ _) fun _ _ hg hgs => h.carry_lt hh hg hgs

/-- A charge written to the record of a sound seat. -/
theorem Coherent.put_charged (h : Coherent s c late) (hc : c q = .sound) (hh : s.holder q = some r)
    (hm : r.state.mounted = true) (hx : ChargedTo s r x) :
    Coherent (s.putRecord x) (Function.update c q (afterWrite s q x)) late :=
  h.remeasure_sound hc hh hm hx.same hx.fits fun hs => hx.ends ((((h.sound_at hc).due hs).2.of_holder hh).2.2)

/-- A measure write is the write of the record, but for notices. -/
theorem sameParts_measureWrite (s : State) (how : RecomputeBy) (old new : ToolRecord) :
    SameParts (s.putRecord (recompute how (s.marginOf old) new)) (measureWrite s how old new).1 := by
  obtain ⟨hgroups, hseats, hwheels, htable⟩ := measureWrite_fields s how old new
  have hrest := measureWrite_keepsRest s how old new
  exact ⟨htable, hgroups, hseats, hwheels, fun _ => by rw [hrest.stations]; rfl, by rw [hrest.scan]; rfl,
    by rw [hrest.link]; exact id⟩

end Charges

end Sys2Proof.Proofs

/-! Leaving service (R89), a change begun (R101), a new end told (R98), a suspicion (R139) and the end of a probe check. -/

namespace Sys2Proof.Proofs

open Sys2Proof.Machine Sys2Proof.Safety Sys2Proof.Laws

section Leaving

variable {s : State} {c : SeatNo → Claim} {late : Option GroupNo} {q : SeatNo} {r : ToolRecord} {w : WheelNo}

/-! ### Leaving service -/

/-- A wheel seat as it leaves service with a cut closed. -/
def closedWheel (x : Wheel) : Wheel := { rested x with accumulator := 0, cutTimer := none }

theorem wheelFits_rested {x : Wheel} {v : Service} {partOpen fault : Bool} (h : WheelFits x v partOpen fault)
    (hc : ¬ (x.phase = .engage ∨ x.phase = .cut)) : WheelFits (rested x) v partOpen fault where
  resting _ := ⟨rfl, rfl⟩
  cutTimer := iff_of_false (fun ht => hc (h.cutTimer.1 ht)) (fun hp => hp.elim nofun nofun)
  phases := iff_of_false (fun ht => ht rfl) (fun hp => hp.elim nofun nofun)
  load := .inl (h.load.resolve_right fun hp => hc (.inr hp))
  cutSeen hs := Bool.noConfusion hs
  checks hn := absurd rfl hn
  loaded hn := hn.elim (absurd rfl) (absurd rfl)
  touching hn := absurd rfl hn

theorem wheelFits_closed (x : Wheel) (v : Service) (partOpen fault : Bool) : WheelFits (closedWheel x) v partOpen fault where
  resting _ := ⟨rfl, rfl⟩
  cutTimer := iff_of_false (fun ht => ht rfl) (fun hp => hp.elim nofun nofun)
  phases := iff_of_false (fun ht => ht rfl) (fun hp => hp.elim nofun nofun)
  load := .inl rfl
  cutSeen hs := Bool.noConfusion hs
  checks hn := absurd rfl hn
  loaded hn := hn.elim (absurd rfl) (absurd rfl)
  touching hn := absurd rfl hn

theorem rested_closedWheel (x : Wheel) : Rested (closedWheel x) := ⟨rfl, rfl, rfl, rfl, rfl, rfl⟩

theorem restedAt_setWheel (s : State) {x : Wheel} (hx : Rested x) : RestedAt (s.setWheel w x) (seatOfWheel w) := by
  intro v hv
  obtain rfl := seatOfWheel_injective hv
  rwa [setWheel_get]

/-- A seat without an open cut leaves service: its wheel seat rests, and nothing else is touched. -/
theorem Coherent.leave_quiet (h : Coherent s c late) (hc : ∀ w, q = seatOfWheel w → ¬ CutOpen s w) :
    Coherent (leaveService s q) c late ∧ RestedAt (leaveService s q) q := by
  obtain ⟨w, rfl⟩ | hd := seat_cases q
  · rw [leaveService_of_no_cut s (hc w rfl)]
    refine ⟨?_, restedAt_setWheel _ (rested_rested _)⟩
    rw [← raiseIf_setWheel]
    exact coherent_raiseIf (h.wheel (wheelFits_rested (h.wheels w) (hc w rfl)) (.inr (rested_rested _))) _ _ _
  · rw [leaveService_of_dresser s hd]
    refine ⟨h, fun w hw => ?_⟩
    subst hw
    exact absurd (seatOfWheel_lt w) (Nat.not_lt.2 hd)

/-- A seat leaves service with its record mounted: an open cut is charged to it. -/
theorem Coherent.leave (h : Coherent s c late) (hh : s.holder q = some r) (hm : r.state.mounted = true)
    (hkeep : ∀ x, ChargedTo s r x → Coherent (s.putRecord x) c late) :
    Coherent (leaveService s q) c late ∧ RestedAt (leaveService s q) q := by
  by_cases hc : ∃ w, q = seatOfWheel w ∧ CutOpen s w
  · obtain ⟨w, rfl, hc⟩ := hc
    obtain ⟨g, hg⟩ := Option.ne_none_iff_exists'.1 (h.holder_group hh).1
    obtain ⟨grp, hgs⟩ := h.group hg
    have hx := h.chargedTo_worn hh hm hg hgs s.wheels[w].accumulator (s.marginOf r)
    generalize hr' : Safety.chargedTo (s.marginOf r) (worn s.wheels[w].accumulator grp.params.nominalLoad r) = x at hx
    rw [leaveService_of_charged s hc hh ((mounted_iff _).1 hm) hg hgs hr'.symm]
    refine ⟨?_, restedAt_setWheel _ (rested_closedWheel _)⟩
    rw [← raiseIf_putRecord, ← raiseIf_putRecord, ← raiseIf_putRecord, ← raiseIf_setWheel, ← raiseIf_setWheel, ← raiseIf_setWheel]
    exact coherent_raiseIf (coherent_raiseIf (coherent_raiseIf ((hkeep x hx).wheel (x := closedWheel s.wheels[w])
      (wheelFits_closed _ _ _ _) (.inr (rested_closedWheel _))) _ _ _) _ _ _) _ _ _
  · exact h.leave_quiet fun w hw hcut => hc ⟨w, hw, hcut⟩

theorem Coherent.leave_ending (h : Coherent s c late) (hc : c q = .ending) :
    Coherent (leaveService s q) c late ∧ RestedAt (leaveService s q) q := by
  obtain ⟨_, hheld⟩ := h.ending_at hc
  obtain ⟨r, hh, _, hr, he⟩ := hheld.holder
  exact h.leave hh (by rw [hr]; rfl) fun x hx => h.remeasure_ending hc hh hx.same hx.fits (hx.ends he)

theorem Coherent.leave_halted (h : Coherent s c late) (hc : c q = .sound) (hs : s.seats[q].service = .halted) :
    Coherent (leaveService s q) c late ∧ RestedAt (leaveService s q) q := by
  obtain ⟨r, hh, _, hr⟩ := ((h.sound_at hc).halted hs).2.holder
  have hm : r.state.mounted = true := by rw [hr]; rfl
  refine h.leave hh hm fun x hx => ?_
  have hput := h.put_charged hc hh hm hx
  rw [afterWrite, if_neg (by rw [hs]; nofun)] at hput
  exact hput.same hc

/-! ### A change begun -/

/-- The record of a seat out of service goes to a state off every seat, and the seat is vacated. -/
theorem Coherent.takeOff (h : Coherent s c late) (hrest : RestedAt s q) {v v' : RecState} (hh : s.holder q = some r)
    (hr : r.state = v) (hv : v = .active ∧ v' = .spent ∧ HasEnd r ∨ v = .suspect ∧ v' = .broken) :
    Coherent (Machine.takeOff s q v v') (Function.update c q .vacated) late := by
  rw [takeOff_of s hh hr]
  have hfits := h.tools.recordFits (holder_mem hh)
  have hcause : r.cause.isSome = true ↔ v' = .suspect ∨ v' = .broken := by
    rw [hfits.sound.cause, hr]
    obtain ⟨rfl, rfl, _⟩ | ⟨rfl, rfl⟩ := hv <;> simp
  have hsound : RecordSound { r with state := v', seat := none, cause := r.cause } := by
    refine recordSound_moved hfits.sound ?_ hcause ?_ <;> obtain ⟨_, rfl, _⟩ | ⟨_, rfl⟩ := hv <;> simp
  refine h.vacate (x := { r with state := v', seat := none }) hh hrest ⟨rfl, rfl, rfl⟩ (recordFits_moved hfits hsound ?_) rfl
    fun g he => absurd he (not_eligible_of_state ?_)
  · obtain ⟨_, _, he⟩ | ⟨_, rfl⟩ := hv
    · exact fun _ => he
    · exact nofun
  · obtain ⟨_, rfl, _⟩ | ⟨_, rfl⟩ := hv <;> exact nofun

/-- A change that was to begin has begun. -/
theorem Coherent.beginChange (h : Coherent s c late) (hc : c q = .ending) :
    Coherent (Machine.beginChange s q) (Function.update c q .sound) late := by
  obtain ⟨hleft, hrest⟩ := h.leave_ending hc
  obtain ⟨_, hheld⟩ := hleft.ending_at hc
  obtain ⟨r, hh, _, hr, he⟩ := hheld.holder
  have hoff := hleft.takeOff hrest hh hr (.inl ⟨rfl, rfl, he⟩)
  have hselected := hoff.select_any (Function.update_self ..)
  rwa [Function.update_idem] at hselected

/-- A seat whose tool has ended while a part is open is DUE. -/
theorem Coherent.toDue (h : Coherent s c late) (hc : c q = .ending) (hp : s.stations[stationOf q].partOpen = true) :
    Coherent (s.setService q .due) (Function.update c q .sound) late := by
  obtain ⟨_, hheld⟩ := h.ending_at hc
  obtain ⟨r, hh, _⟩ := hheld.holder
  refine h.service (h.holder_group hh).1 (.inl (by rw [hc]; nofun)) nofun nofun (fun w hw => ?_)
    (seatSound_of_due (setService_service s q _) hp (heldBy_congr hheld rfl))
  subst hw
  exact wheelFits_in_service (h.wheels w) (.inr rfl)

/-- The seat controller told of the end that a RUNNING seat's change waits for. -/
theorem Coherent.toolEnded (h : Coherent s c late) (hc : c q = .ending) (hs : s.seats[q].service = .running) :
    Coherent (Machine.toolEnded s q) (Function.update c q .sound) late := by
  cases hp : s.stations[stationOf q].partOpen with
  | true =>
    rw [toolEnded_of_part_open hs hp]
    exact h.toDue hc hp
  | false =>
    rw [toolEnded_of_no_part hs hp]
    exact h.beginChange hc

theorem newEnd_hasEnd {r x : ToolRecord} (h : NewEnd r x) : HasEnd x :=
  h.imp And.left (Or.imp And.left (Or.imp And.left And.left))

/-- A record without an end has a new end where it has an end. -/
theorem newEnd_of_no_end {r x : ToolRecord} (hr : ¬ HasEnd r) (hx : HasEnd x) : NewEnd r x := by
  have hclear : ∀ {b : Bool}, (b = true → HasEnd r) → b = false := fun {b} hb => by
    cases b with
    | false => rfl
    | true => exact absurd (hb rfl) hr
  refine hx.imp (fun h => ⟨h, hclear .inl⟩) (Or.imp (fun h => ⟨h, hclear fun hb => .inr (.inl hb)⟩)
    (Or.imp (fun h => ⟨h, hclear fun hb => .inr (.inr (.inl hb))⟩) fun h => ⟨h, hclear fun hb => .inr (.inr (.inr hb))⟩))

/-- The seat controller told, if it is, of a measure write of the mounted record: `u` is the state of the write. -/
theorem Coherent.tell {x : ToolRecord} {u : State} (h : Coherent s c late) (hc : c q = .sound) (hh : s.holder q = some r)
    (hu : Coherent u (Function.update c q (afterWrite s q x)) late)
    (hseats : u.seats = s.seats) :
    Coherent (Machine.tell (u, decide (NewEnd r x ∧ r.state = .active)) q) c late := by
  have hstill : s.seats[q].service ≠ .running → Coherent (Machine.tell (u, decide (NewEnd r x ∧ r.state = .active)) q) c late := by
    intro hs
    have hid : Machine.tell (u, decide (NewEnd r x ∧ r.state = .active)) q = u := by
      unfold Machine.tell
      split
      · exact toolEnded_of_not_running (by rwa [hseats])
      · rfl
    rw [hid]
    rw [afterWrite, if_neg fun hc => hs hc.1] at hu
    exact hu.same hc
  obtain ⟨_, ⟨hs, _⟩ | ⟨hs, hr, hn⟩ | ⟨hs, _⟩ | ⟨hs, _⟩⟩ := (h.sound_at hc).holder_cases hh
  · exact hstill (by rw [hs]; nofun)
  · by_cases he : HasEnd x
    · rw [tell_of_told (decide_eq_true ⟨newEnd_of_no_end hn he, hr⟩)]
      rw [afterWrite, if_pos ⟨hs, he⟩] at hu
      have hended := hu.toolEnded (Function.update_self ..) (by rw [hseats, hs])
      rw [Function.update_idem] at hended
      exact hended.same hc
    · rw [tell_of_not_told (decide_eq_false fun hc => he (newEnd_hasEnd hc.1))]
      rw [afterWrite, if_neg fun hc => he hc.2] at hu
      exact hu.same hc
  · exact hstill (by rw [hs]; nofun)
  · exact hstill (by rw [hs]; nofun)

/-- The seat controller told of a charge of the mounted record. -/
theorem Coherent.tell_charge {y : ToolRecord} (h : Coherent s c late) (hc : c q = .sound) (hh : s.holder q = some r)
    (hm : r.state.mounted = true) (hy : ChargedTo s r (recompute .charge (s.marginOf r) y)) :
    Coherent (Machine.tell (measureWrite s .charge r y) q) c late := by
  have hfst := coherent_congr (h.put_charged hc hh hm hy) (sameParts_measureWrite s .charge r y)
  have hsnd : (measureWrite s .charge r y).2 = decide (NewEnd r (recompute .charge (s.marginOf r) y) ∧ r.state = .active) := by
    rw [measureWrite_mounted s _ _ _ q (holder_seat hh) ((mounted_iff _).1 hm)]
  have htell := h.tell hc hh hfst (measureWrite_fields s .charge r y).2.1
  rwa [← hsnd] at htell

/-! ### Suspicions -/

theorem wheelFits_faulted {x : Wheel} {v : Service} {partOpen fault fault' : Bool} (h : WheelFits x v partOpen fault) :
    WheelFits (faulted x) v partOpen fault' where
  resting := h.resting
  cutTimer := h.cutTimer
  phases := h.phases
  load := h.load
  cutSeen := h.cutSeen
  checks hn := absurd rfl hn
  loaded hn := hn.elim (absurd rfl) (absurd rfl)
  touching hn := absurd rfl hn

theorem Coherent.suspicion (h : Coherent s c late) (hc : c (seatOfWheel w) = .sound) (cause : BreakCause) :
    Coherent (Machine.suspicion s w cause) c late := by
  obtain heq | ⟨r, hh, hr, heq⟩ := suspicion_cases s w cause
  · rwa [heq]
  rw [heq, abortCheck_stopFilters_eq]
  have hfits := h.tools.recordFits (holder_mem hh)
  have hseat := holder_seat hh
  obtain ⟨_, hsole, _, hwait⟩ := h.held hh
  obtain ⟨hb, hg⟩ := h.holder_group hh
  have hsound : RecordSound { r with state := .suspect, seat := r.seat, cause := some cause } :=
    recordSound_moved hfits.sound (by simp [hfits.sound.seat, hr]) (by simp) (by simp)
  have hquiet := h.wheel (w := w) (x := faulted s.wheels[w]) (wheelFits_faulted (h.wheels w)) (.inl (by rw [hc]; nofun))
  have hne : ∀ p, p ≠ seatOfWheel w → r.seat ≠ some p := fun p hp hrp => hp (Option.some.inj (hrp.symm.trans hseat))
  have hmoved := hquiet.move (x := { r with state := .suspect, cause := some cause }) (v := .halted) (k := .sound)
    (q := seatOfWheel w) (holder_mem hh) ⟨rfl, rfl, rfl⟩
    (recordFits_moved (hquiet.tools.recordFits (holder_mem hh)) hsound nofun)
    (fun p hp => ⟨hne p hp, hne p hp⟩) (fun _ => hg) hb (.inr hwait) nofun nofun
    (fun g he => absurd he (not_eligible_of_state nofun))
    (fun v hv => by
      obtain rfl := seatOfWheel_injective hv
      exact wheelFits_of_quiet (hquiet.wheels w) (.inr rfl) (by rw [setWheel_get]; rfl) (by rw [setWheel_get]; rfl)
        (by rw [setWheel_get]; rfl) (by rw [setWheel_get]; rfl))
    (seatSound_of_halted (setService_service _ _ _) (seatOfWheel_lt w) (heldBy_congr
      (heldBy_put_self (x := { r with state := .suspect, cause := some cause }) (holder_mem hh) rfl hsole hseat rfl) rfl))
  rw [← raiseIf_setWheel]
  refine coherent_raiseIf ?_ _ _ _
  exact coherent_congr (hmoved.same hc) ⟨rfl, rfl, rfl, rfl, fun _ => rfl, rfl, id⟩

/-! ### Probe checks -/

theorem wheelFits_no_check {x : Wheel} {v : Service} {partOpen fault : Bool} (h : WheelFits x v partOpen fault)
    (result : ProbeResult) : WheelFits { x with check := none, lastResult := result } v partOpen fault where
  resting := h.resting
  cutTimer := h.cutTimer
  phases := h.phases
  load := h.load
  cutSeen := h.cutSeen
  checks hn := absurd rfl hn
  loaded := h.loaded
  touching := h.touching

theorem Coherent.endCheck (h : Coherent s c late) (hc : c (seatOfWheel w) = .sound) (result : ProbeResult) :
    Coherent (Machine.endCheck s w result) c late := by
  have hfinish : Coherent (finishCheck s w result) c late := coherent_congr
    (h.wheel (wheelFits_no_check (h.wheels w) result) (.inl (by rw [hc]; nofun))) (sameParts_raise _ _ _)
  cases result
  case low | high => exact hfinish.suspicion hc _
  case none | pass | noData | aborted => exact hfinish

end Leaving

end Sys2Proof.Proofs

/-! The commands of the tool table that leave the groups' members: ENROL, LOCK, UNLOCK and EDIT (R20 to R29, R17). -/

namespace Sys2Proof.Proofs

open Sys2Proof.Machine Sys2Proof.Safety Sys2Proof.Laws

/-! ### Records in and out -/

section Records

variable {s : State} {c : SeatNo → Claim} {late : Option GroupNo} {q : SeatNo} {r x : ToolRecord}

/-- Records come and go that are in no group and at no seat. -/
theorem Coherent.loose (h : Coherent s c late) {l : List ToolRecord} (ho : TableOrdered { s with table := l })
    (hin : ∀ x ∈ l, x ∈ s.table ∨ RecordFits s x ∧ x.group = none ∧ x.seat = none)
    (hkept : ∀ x ∈ s.table, x ∈ l ∨ x.group = none ∧ x.seat = none) : Coherent { s with table := l } c late := by
  have hgrouped : ∀ x ∈ l, ∀ g, x.group = some g → x ∈ s.table := fun x hx g hg =>
    (hin x hx).resolve_right fun hn => by rw [hn.2.1] at hg; cases hg
  have hseated : ∀ x ∈ l, ∀ p, x.seat = some p → x ∈ s.table := fun x hx p hp =>
    (hin x hx).resolve_right fun hn => by rw [hn.2.2] at hp; cases hp
  have hfits : ∀ x ∈ l, RecordFits s x := fun x hx => (hin x hx).elim h.tools.recordFits And.left
  have hheld : ∀ p P, HeldBy s p P → HeldBy { s with table := l } p P := by
    rintro p P ⟨y, ⟨hy, hyp, hsole⟩, hP⟩
    have hyl := (hkept y hy).resolve_right fun hn => by rw [hn.2] at hyp; cases hyp
    exact ⟨y, ⟨hyl, hyp, fun z hz hzp => hsole z (hseated z hz p hzp) hzp⟩, hP⟩
  refine ⟨⟨⟨ho, fun x hx => (hfits x hx).sound⟩, fun x hx => (hfits x hx).spent, fun x hx => (hfits x hx).loose,
    fun x hx g hg => h.tools.grouped x (hgrouped x hx g hg) g hg, fun g grp hg => ?_, h.tools.params, h.tools.cursor⟩,
    queuesFit_congr h.queues rfl rfl, servedBut_of h.served (.of_eq _ rfl) fun g n _ he => ?_,
    ⟨fun x hx p hp => h.seats.seated x (hseated x hx p hp) p hp, fun p => meets_of (h.seats.meets p) (hheld p)
      (fun hE y hy hyp => hE y (hseated y hy p hyp) hyp) rfl rfl fun _ _ => rfl⟩, h.wheels, h.watchdog⟩
  · obtain ⟨hnodup, hlength, hnominal, hall⟩ := h.tools.members g grp hg
    refine ⟨hnodup, hlength, hnominal, fun n hn => ?_⟩
    obtain ⟨y, hy, hyg⟩ := hall n hn
    have hyl := (hkept y (find_mem hy)).resolve_right fun hn => by rw [hn.1] at hyg; cases hyg
    exact ⟨y, by rw [← find_number hy]; exact find_of_mem ho hyl, hyg⟩
  · obtain ⟨y, hy, ha, hyg, hend⟩ := (eligible_iff _ g n).1 he
    refine (eligible_iff s g n).2 ⟨y, ?_, ha, hyg, hend⟩
    rw [← find_number hy]
    exact find_of_mem h.ordered (hgrouped y (find_mem hy) g hyg)

/-- A record off every seat, rewritten there: its group may have grants to make. -/
theorem Coherent.put_off_late (h : Coherent s c none) (hr : r ∈ s.table) (hsame : SameTool r x) (hfits : RecordFits s x)
    (hrs : r.seat = none) (hxs : x.seat = none) : Coherent (s.putRecord x) c (lateOf x) :=
  (coherent_weaken (lateOf x) h).put_off hr hsame hfits hrs hxs fun _ he => .inl (eligibleIn_lateOf he)

theorem lateOf_of_state (h : r.state ≠ .available) : lateOf r = none := if_neg fun hc => h hc.1

/-- A record that names a seat holds it. -/
theorem Coherent.holder_of (h : Coherent s c late) (hr : r ∈ s.table) (hq : r.seat = some q) :
    s.holder q = some r := by
  cases hh : s.holder q with
  | none => exact absurd (beq_iff_eq.2 hq) (List.find?_eq_none.1 hh r hr)
  | some y =>
    obtain ⟨_, hsole, _⟩ := h.held hh
    rw [hsole r hr hq]

theorem not_holdsTool_of {v : Service} (hs : s.seats[q].service = v) (hv : v.holdsTool = false) : ¬ HoldsTool s q := by
  rw [← holdsTool_iff, hs, hv]
  nofun

/-- A seat whose service state holds no tool is out of service. -/
theorem Coherent.restedAt (h : Coherent s c late) (hs : ¬ HoldsTool s q) : RestedAt s q := by
  intro w hw
  subst hw
  exact rested_of_wheelFits (h.wheels w) hs

theorem Coherent.chosen_seat (h : Coherent s calm late) (hh : s.holder q = some r) (hr : r.state = .chosen) :
    s.seats[q].service = .changing := by
  obtain ⟨_, ⟨hs, _⟩ | ⟨_, hs, _⟩ | ⟨_, hs, _⟩ | ⟨_, hs⟩⟩ := (h.sound_at rfl).holder_cases hh
  · exact hs
  all_goals
    rw [hr] at hs
    cases hs

/-- A CHOSEN record leaves its seat for a state that no selection takes, and the seat selects again. -/
theorem Coherent.reselect (h : Coherent s calm none) (hr : r ∈ s.table) (hs : r.state = .chosen) (hq : r.seat = some q)
    (hsame : SameTool r x) (hfits : RecordFits s x) (hxs : x.seat = none) (hxa : x.state ≠ .available) :
    Coherent (Machine.select (s.putRecord x) q none) calm none := by
  have hh := h.holder_of (q := q) hr hq
  have hservice := h.chosen_seat hh hs
  have hrest := h.restedAt (q := q) (not_holdsTool_of hservice rfl)
  have hselected := (h.vacate hh hrest hsame hfits hxs fun _ he => absurd he (not_eligible_of_state hxa)).select_any
    (Function.update_self ..)
  rw [Function.update_idem] at hselected
  exact hselected.same rfl

end Records

/-! ### ENROL, LOCK and UNLOCK -/

section Table

variable {s : State} (h : Coherent s calm none)

include h

theorem enrolCommand_coherent (t : Half) (k p : Byte) (m : Measures) : Coherent (enrolCommand t k p m s).1 calm none := by
  have ho := enrolCommand_ordered h.ordered t k p m
  unfold enrolCommand at ho ⊢
  split
  · next n k ht hk =>
    rw [ht, hk] at ho
    split_ifs with hfound hfull
    · exact h
    · exact h
    · have hnew := newRecord_sound ht k p m
      have hspent : (newRecord n k p m).state = .spent → HasEnd (newRecord n k p m) := by
        intro hs
        rw [← ended_isEmpty_false_iff, ← Bool.not_eq_true]
        simp only [newRecord] at hs ⊢
        split at hs
        · cases hs
        · assumption
      have hmem : ∀ x, x ∈ insertRecord (newRecord n k p m) s.table ↔ x = newRecord n k p m ∨ x ∈ s.table := fun x => by
        rw [(insertRecord_perm _ _).mem_iff, List.mem_cons]
      refine h.loose ?_ (fun x hx => ?_) fun x hx => .inl ((hmem x).2 (.inr hx))
      · simp only [hfound, hfull, if_false, Bool.false_eq_true] at ho
        exact ho
      · obtain rfl | hx := (hmem x).1 hx
        · exact .inr ⟨⟨hnew, hspent, fun _ => ⟨rfl, rfl⟩, nofun⟩, rfl, rfl⟩
        · exact .inl hx
  · exact h

theorem lockCommand_coherent (t : Half) : Coherent (lockCommand t s).1 calm none := by
  have hheld : ∀ {r : ToolRecord}, r ∈ s.table → r.state ≠ .suspect → r.state ≠ .broken →
      RecordFits s { r with state := .held, seat := none } := by
    intro r hr hs hb
    have hfits := h.tools.recordFits hr
    exact recordFits_moved hfits (recordSound_unseated hfits.sound hs hb (.inr (.inl rfl)) nofun) nofun
  have hfree : ∀ {n : Nat} {r : ToolRecord}, s.find n = some r → (r.state = .available ∨ r.state = .spent) →
      Coherent (s.restate n .held) calm none := by
    intro n r hf hs
    have hmem := find_mem hf
    have hnone : r.seat = none := recordSound_no_seat (h.tools.recordFits hmem).sound
      (by obtain hs | hs := hs <;> rw [hs] <;> rfl)
    have hfits := hheld hmem (by obtain hs | hs := hs <;> rw [hs] <;> decide) (by obtain hs | hs := hs <;> rw [hs] <;> decide)
    rw [restate_eq s n r .held hf]
    rw [← hnone] at hfits
    exact h.put_off_late hmem ⟨rfl, rfl, rfl⟩ hfits hnone hnone
  unfold lockCommand
  split
  · split
    · next r hf =>
      split
      · next hs => exact hfree hf (.inl hs)
      · next hs => exact hfree hf (.inr hs)
      · next hs =>
        have hmem := find_mem hf
        obtain ⟨q, hq⟩ := Option.isSome_iff_exists.1 ((h.tools.recordFits hmem).sound.seat.2 (.inl hs))
        rw [reselect_eq s _ r .held q hf hq]
        exact h.reselect (x := { r with state := .held, seat := none }) hmem hs hq ⟨rfl, rfl, rfl⟩
          (hheld hmem (by rw [hs]; decide) (by rw [hs]; decide)) rfl nofun
      all_goals exact h
    · exact h
  · exact h

theorem unlockCommand_coherent (t : Half) : Coherent (unlockCommand t s).1 calm none := by
  have hput : ∀ {n : Nat} {r : ToolRecord} {v : RecState}, s.find n = some r → r.state = .held →
      (v = .available ∧ ¬ HasEnd r ∨ v = .spent ∧ HasEnd r) →
      Coherent (s.putRecord { r with state := v }) calm (lateOf { r with state := v })
        ∧ (s.putRecord { r with state := v }).find n = some { r with state := v } := by
    intro n r v hf hs hv
    have hmem := find_mem hf
    have hfits := h.tools.recordFits hmem
    have hnone : r.seat = none := recordSound_no_seat hfits.sound (by rw [hs]; rfl)
    have hsound : RecordSound { r with state := v, seat := none } :=
      recordSound_unseated hfits.sound (by rw [hs]; decide) (by rw [hs]; decide)
        (hv.imp And.left fun hv => .inr hv.1) fun ha => by
          obtain ⟨_, he⟩ | ⟨hs', _⟩ := hv
          · exact (ended_isEmpty_iff r).2 he
          · rw [ha] at hs'
            cases hs'
    have hmoved := recordFits_moved hfits hsound fun hsp => by
      obtain ⟨ha, _⟩ | ⟨_, he⟩ := hv
      · rw [hsp] at ha
        cases ha
      · exact he
    rw [← hnone] at hmoved
    refine ⟨h.put_off_late hmem ⟨rfl, rfl, rfl⟩ hmoved hnone hnone, ?_⟩
    obtain rfl := find_number hf
    exact find_putRecord_same (r := { r with state := v }) hf
  unfold unlockCommand
  split
  · split
    · next r hf =>
      split
      · next hs =>
        split
        · next he =>
          obtain ⟨hcoherent, hfound⟩ := hput hf hs (.inl ⟨rfl, (ended_isEmpty_iff r).1 he⟩)
          rw [restate_eq s _ r .available hf]
          exact hcoherent.inform hfound
        · next he =>
          obtain ⟨hcoherent, _⟩ := hput hf hs (.inr ⟨rfl, not_not.1 ((ended_isEmpty_iff r).not.1 he)⟩)
          rw [restate_eq s _ r .spent hf]
          exact hcoherent
      · exact h
    · exact h
  · exact h

end Table

/-! ### EDIT -/

section Edit

variable {s : State} {r r' : ToolRecord}

/-- The record that EDIT writes, in the state and at the seat that EDIT leaves it in. -/
theorem Coherent.editedFits (h : Coherent s calm none) (hr : r ∈ s.table) {apply presence : Byte} {m : Measures}
    (hr' : r' = judged (s.marginOf r) (edited apply presence m r)) {v : RecState} {o : Option SeatNo}
    (hseat : o.isSome = true ↔ v = .chosen ∨ v = .active ∨ v = .suspect)
    (hcause : r.cause.isSome = true ↔ v = .suspect ∨ v = .broken) (hend : v = .available ∨ v = .chosen → ¬ HasEnd r')
    (hspent : v = .spent → HasEnd r') : RecordFits s { r' with state := v, seat := o } := by
  have hfits := h.tools.recordFits hr
  subst hr'
  refine ⟨edited_sound hfits.sound apply presence m _ hseat hcause hend, hspent, fun hg => ⟨?_, (hfits.loose hg).2⟩, hfits.carry⟩
  have hloose : r.group = none := hg
  have hmargin : s.marginOf r = none := by rw [State.marginOf, hloose]
  change computedWarning _ (s.marginOf r) = false
  rw [hmargin]
  rfl

/-- EDIT of a record that no seat has mounted. -/
theorem Coherent.edit_unmounted (h : Coherent s calm none) (hf : s.find r.number = some r) (hm : r.state.mounted = false)
    (hb : r.state ≠ .broken) {apply presence : Byte} {m : Measures}
    (hr' : r' = judged (s.marginOf r) (edited apply presence m r)) :
    Coherent (editEffect (s.putRecord r') r (decide (NewEnd r r')) (decide (HasEnd r ∧ ¬ HasEnd r'))) calm none := by
  have hmem := find_mem hf
  have hfits := h.tools.recordFits hmem
  have hsame : SameTool r r' := by rw [hr']; exact ⟨rfl, rfl, rfl⟩
  have hstate : r'.state = r.state := by rw [hr']; rfl
  have hseat : r'.seat = r.seat := by rw [hr']; rfl
  have hnosus : r.state ≠ .suspect := fun hs => by rw [hs] at hm; cases hm
  have hcause : r.cause = none := recordSound_no_cause hfits.sound hnosus hb
  have hnew {v : RecState} {o : Option SeatNo} (hseat : o.isSome = true ↔ v = .chosen ∨ v = .active ∨ v = .suspect)
      (hv : ¬ (v = .suspect ∨ v = .broken)) (hend : v = .available ∨ v = .chosen → ¬ HasEnd r') (hspent : v = .spent → HasEnd r') :
      RecordFits s { r' with state := v, seat := o } :=
    h.editedFits hmem hr' hseat (by rw [hcause]; exact iff_of_false Bool.false_ne_true hv) hend hspent
  have hwritten (hend : r.state = .available ∨ r.state = .chosen → ¬ HasEnd r') (hspent : r.state = .spent → HasEnd r') :
      RecordFits s r' := by
    have hnew := hnew (v := r'.state) (o := r'.seat) (by rw [hstate, hseat]; exact hfits.sound.seat)
      (by rw [hstate]; exact fun hc => hc.elim hnosus hb) (by rw [hstate]; exact hend) (by rw [hstate]; exact hspent)
    exact hnew
  have hkept (hne : ¬ NewEnd r r') (hs : r.state = .available ∨ r.state = .chosen) : ¬ HasEnd r' := fun he =>
    hne (newEnd_of_no_end ((ended_isEmpty_iff r).1 (hfits.sound.unended hs)) he)
  have hfn : s.find r'.number = some r := by rw [hsame.number, hf]
  cases hs : r.state with
  | active | suspect => rw [hs] at hm; cases hm
  | broken => exact absurd hs hb
  | held =>
    have hnone : r.seat = none := recordSound_no_seat hfits.sound (by rw [hs]; rfl)
    simp only [editEffect, hs]
    have hput := h.put_off_late hmem hsame (hwritten (by rw [hs]; simp) (by rw [hs]; nofun)) hnone (hseat.trans hnone)
    rwa [lateOf_of_state (by rw [hstate, hs]; nofun)] at hput
  | available =>
    have hnone : r.seat = none := recordSound_no_seat hfits.sound (by rw [hs]; rfl)
    by_cases hne : NewEnd r r'
    · simp only [editEffect, hs, hne, decide_true, if_true]
      rw [← hsame.number, restate_putRecord s r' r _ hfn]
      exact h.put_off_late (x := { r' with state := .spent }) hmem ⟨hsame.number, hsame.kind, hsame.group⟩
        (hnew (v := .spent) (o := r'.seat) (by rw [hseat, hnone]; simp) (by simp) (by simp) fun _ => newEnd_hasEnd hne)
        hnone (hseat.trans hnone)
    · simp only [editEffect, hs, hne, decide_false, Bool.false_eq_true, if_false]
      refine h.put_off hmem hsame (hwritten (hkept hne) (by rw [hs]; nofun)) hnone (hseat.trans hnone) fun g he => .inr ?_
      obtain ⟨_, hg, _⟩ := (eligibleIn_iff r' g).1 he
      exact (eligibleIn_iff r g).2 ⟨hs, hsame.group ▸ hg, (ended_isEmpty_iff r).1 (hfits.sound.unended (.inl hs))⟩
  | chosen =>
    obtain ⟨q, hq⟩ := Option.isSome_iff_exists.1 (hfits.sound.seat.2 (.inl hs))
    by_cases hne : NewEnd r r'
    · simp only [editEffect, hs, hne, decide_true, if_true]
      rw [← hsame.number, reselect_putRecord s r' r _ q hfn (hseat.trans hq)]
      exact h.reselect (x := { r' with state := .spent, seat := none }) hmem hs hq ⟨hsame.number, hsame.kind, hsame.group⟩
        (hnew (v := .spent) (o := none) (by simp) (by simp) (by simp) fun _ => newEnd_hasEnd hne) rfl nofun
    · simp only [editEffect, hs, hne, decide_false, Bool.false_eq_true, if_false]
      have hh := h.holder_of (q := q) hmem hq
      obtain ⟨_, hsole, hu, hw⟩ := h.held hh
      obtain ⟨hb, hg⟩ := h.holder_group hh
      have hne' : ∀ p, p ≠ q → r.seat ≠ some p := fun p hp hrp => hp (Option.some.inj (hrp.symm.trans hq))
      have hput := h.put_at (q := q) (k := .sound) hmem hsame (hwritten (hkept hne) (by rw [hs]; nofun))
        (fun p hp => ⟨hne' p hp, hseat ▸ hne' p hp⟩) (fun _ => hsame.group.trans hg) hb hu hw
        (fun g he => absurd he (not_eligible_of_state (by rw [hstate, hs]; nofun)))
        (seatSound_of_changing (h.chosen_seat hh hs)
          (heldBy_put_self hmem hsame.number hsole (hseat.trans hq) (hstate.trans hs)))
      exact hput.same rfl
  | spent =>
    have hnone : r.seat = none := recordSound_no_seat hfits.sound (by rw [hs]; rfl)
    by_cases hun : HasEnd r ∧ ¬ HasEnd r'
    · simp only [editEffect, hs, decide_eq_true hun, if_true]
      rw [← hsame.number, restate_putRecord s r' r _ hfn]
      have hput := h.put_off_late (x := { r' with state := .available }) hmem ⟨hsame.number, hsame.kind, hsame.group⟩
        (hnew (v := .available) (o := r'.seat) (by rw [hseat, hnone]; simp) (by simp) (fun _ => hun.2) nofun)
        hnone (hseat.trans hnone)
      exact hput.inform (find_putRecord_same (r := { r' with state := .available }) hfn)
    · simp only [editEffect, hs, decide_eq_false hun, Bool.false_eq_true, if_false]
      have hput := h.put_off_late hmem hsame (hwritten (by rw [hs]; simp) fun _ => by_contra fun he =>
        hun ⟨hfits.spent hs, he⟩) hnone (hseat.trans hnone)
      rwa [lateOf_of_state (by rw [hstate, hs]; nofun)] at hput

theorem SameParts.setService {t : State} (h : SameParts s t) (q : SeatNo) (v : Service) :
    SameParts (s.setService q v) (t.setService q v) :=
  ⟨h.table, h.groups, by rw [setService_seats, setService_seats, h.seats], h.wheels, h.partOpen, h.fault, h.watchdog⟩

/-- EDIT of a mounted record: a new end is told, and a DUE seat whose record has no end left is RUNNING again. -/
theorem Coherent.edit_mounted (h : Coherent s calm none) (hmem : r ∈ s.table) (hm : r.state.mounted = true)
    {apply presence : Byte} {m : Measures} (hr' : r' = judged (s.marginOf r) (edited apply presence m r)) :
    Coherent (editEffect (measureWrite s .command r (edited apply presence m r)).1 r (decide (NewEnd r r'))
      (decide (HasEnd r ∧ ¬ HasEnd r'))) calm none := by
  have hfits := h.tools.recordFits hmem
  have hsame : Remeasured r r' := by rw [hr']; exact ⟨rfl, rfl, rfl, rfl, rfl⟩
  obtain ⟨q, hq⟩ := Option.isSome_iff_exists.1 (hfits.sound.seat.2 (.inr ((mounted_iff _).1 hm)))
  have hh := h.holder_of (q := q) hmem hq
  have hfits' : RecordFits s r' := by
    have hnew := h.editedFits hmem hr' (v := r'.state) (o := r'.seat) (by rw [hsame.state, hsame.seat]; exact hfits.sound.seat)
      (by rw [hsame.state]; exact hfits.sound.cause)
      (by rw [hsame.state]; exact fun hs => absurd hs (mounted_not_selectable hm))
      (by rw [hsame.state]; exact fun hs => by rw [hs] at hm; cases hm)
    exact hnew
  have hparts : SameParts (s.putRecord r') (measureWrite s .command r (edited apply presence m r)).1 := by
    rw [hr']
    exact sameParts_measureWrite s .command r _
  have hseats := (measureWrite_fields s .command r (edited apply presence m r)).2.1
  have hwrite (hdue : s.seats[q].service = .due → HasEnd r') := coherent_congr
    (h.remeasure_sound (q := q) rfl hh hm hsame hfits' hdue) hparts
  have htable := hparts.table
  have hstations := hparts.partOpen
  generalize (measureWrite s .command r (edited apply presence m r)).1 = u at *
  obtain ⟨hsole, ⟨_, hs⟩ | ⟨hservice, hs, hnone⟩ | ⟨hservice, hs, he⟩ | ⟨hservice, hs⟩⟩ := (h.sound_at (q := q) rfl).holder_cases hh
  · rw [hs] at hm
    cases hm
  · have hun : ¬ (HasEnd r ∧ ¬ HasEnd r') := fun hc => hnone hc.1
    have htell := h.tell (q := q) rfl hh (hwrite (by rw [hservice]; nofun)) hseats
    simp only [hs, and_true] at htell
    simp only [editEffect, hs, hq, decide_eq_false hun, Bool.false_and, Bool.false_eq_true, if_false]
    exact htell
  · simp only [editEffect, hs, hq, hseats, hservice, beq_self_eq_true, Bool.and_true]
    by_cases he' : HasEnd r'
    · have htell := hwrite fun _ => he'
      rw [afterWrite, if_neg (by rw [hservice]; nofun)] at htell
      rw [decide_eq_false fun hc : HasEnd r ∧ ¬ HasEnd r' => hc.2 he', toolEnded_of_not_running (by rw [hseats, hservice]; nofun)]
      simp only [Bool.false_eq_true, if_false, ite_self]
      exact htell.same rfl
    · have hnoseat : ∀ p, p ≠ q → r.seat ≠ some p := fun p hp hrp => hp (Option.some.inj (hrp.symm.trans hq))
      obtain ⟨hb, hg⟩ := h.holder_group hh
      have hmoved := h.move (q := q) (v := .running) (k := .sound) hmem hsame.same hfits'
        (fun p hp => ⟨hnoseat p hp, hsame.seat ▸ hnoseat p hp⟩) (fun _ => hsame.group.trans hg) hb
        (.inr (by rw [hservice]; nofun)) nofun nofun
        (fun g hel => absurd hel (not_eligible_of_state (by rw [hsame.state, hs]; nofun)))
        (fun w hw => by subst hw; exact wheelFits_in_service (h.wheels w) (.inl rfl))
        (seatSound_of_running (setService_service _ q _) (heldBy_congr
          (h.heldBy_put hh hsame (P := fun r => r.state = .active ∧ ¬ HasEnd r) ⟨hsame.state.trans hs, he'⟩) rfl))
      rw [decide_eq_false fun hc => he' (newEnd_hasEnd hc), decide_eq_true ⟨he, he'⟩]
      simp only [Bool.false_eq_true, if_false, if_true]
      exact coherent_congr (hmoved.same rfl) (hparts.setService q .running)
  · have htell := hwrite (by rw [hservice]; nofun)
    rw [afterWrite, if_neg (by rw [hservice]; nofun)] at htell
    simp only [editEffect, hs]
    exact htell.same rfl

theorem editCommand_coherent (h : Coherent s calm none) (t : Half) (a p : Byte) (m : Measures) :
    Coherent (editCommand t a p m s).1 calm none := by
  by_cases ht : t = 0 ∨ t = 0xFFFF
  · rwa [editCommand_bad_tool ht]
  cases hf : s.find t.toNat with
  | none => rwa [editCommand_unknown ht hf]
  | some r =>
    obtain ⟨h0, h1⟩ := not_or.1 ht
    by_cases hb : r.state = .broken
    · rwa [editCommand_of_broken h0 h1 hf hb]
    rw [editCommand_of_found h0 h1 hf hb rfl]
    cases hm : r.state.mounted with
    | false =>
      rw [measureWrite_unmounted s .command r _ hm]
      exact h.edit_unmounted (by rw [find_number hf, hf]) hm hb rfl
    | true => exact h.edit_mounted (find_mem hf) hm rfl

end Edit

end Sys2Proof.Proofs

/-! The commands that change the groups: LINK, UNLINK and RETIRE (R60 to R63, R31) as one change of a member list, and
DEFINE (R55 to R58). -/

namespace Sys2Proof.Proofs

open Sys2Proof.Machine Sys2Proof.Safety Sys2Proof.Laws

/-! ### A member comes or goes -/

/-- The group with a member list and a cursor for it. -/
structure Relisted (grp : Group) (n : Nat) (joins : Prop) (grp' : Group) : Prop where
  kind    : grp'.kind = grp.kind
  params  : grp'.params = grp.params
  queue   : grp'.queue = grp.queue
  others  : ∀ m, m ≠ n → (m ∈ grp'.members ↔ m ∈ grp.members)
  self    : n ∈ grp'.members ↔ joins
  nodup   : grp'.members.Nodup
  length  : grp'.members.length ≤ 12
  cursor  : ∀ c, grp'.cursor = some c → grp'.params.policy = .rotate ∧ c < grp'.members.length

section Regroup

variable {s : State} {c : SeatNo → Claim} {late : Option GroupNo} {r x : ToolRecord} {g : GroupNo} {grp grp' : Group}

theorem mem_putRecord_ne {y : ToolRecord} (h : y ∈ (s.putRecord x).table) : y = x ∨ y ∈ s.table ∧ y.number ≠ x.number := by
  rw [putRecord_table] at h
  obtain ⟨z, hz, rfl⟩ := List.mem_map.1 h
  split
  · exact .inl rfl
  · next hne => exact .inr ⟨hz, hne⟩

theorem mem_putRecord_of_ne {y : ToolRecord} (hy : y ∈ s.table) (hne : y.number ≠ x.number) : y ∈ (s.putRecord x).table := by
  rw [putRecord_table]
  exact List.mem_map.2 ⟨y, hy, if_neg hne⟩

/-- A record off every seat joins or leaves a group. -/
theorem Coherent.regroup (h : Coherent s c late) (hr : r ∈ s.table) (hg : s.groups[g] = some grp)
    (hrg : r.group = none ∨ r.group = some g) (hxg : x.group = none ∨ x.group = some g ∧ x.kind = grp.kind)
    (hn : x.number = r.number) (hfits : RecordFits s x) (hrs : r.seat = none) (hxs : x.seat = none)
    (hl : Relisted grp r.number (x.group = some g) grp') (hlate : ∀ a, x.eligibleIn a = true → late = some a) :
    Coherent ((s.setGroup g (some grp')).putRecord x) c late := by
  have ho := h.ordered
  have hother : ∀ {y : ToolRecord}, y ∈ s.table → y.number ≠ r.number → y ∈ ((s.setGroup g (some grp')).putRecord x).table :=
    fun hy hne => mem_putRecord_of_ne (s := s.setGroup g (some grp')) hy (by rwa [hn])
  have hself : x ∈ ((s.setGroup g (some grp')).putRecord x).table := by
    rw [putRecord_table]
    exact List.mem_map.2 ⟨r, hr, if_pos hn.symm⟩
  have hmem : ∀ y ∈ ((s.setGroup g (some grp')).putRecord x).table, y = x ∨ y ∈ s.table ∧ y.number ≠ r.number := by
    intro y hy
    rw [← hn]
    exact mem_putRecord_ne (s := s.setGroup g (some grp')) hy
  have hfind : ∀ m, m ≠ r.number → ((s.setGroup g (some grp')).putRecord x).find m = s.find m := fun m hm =>
    find_putRecord_ne (s.setGroup g (some grp')) (r := x) (by rw [hn]; exact hm.symm)
  have hparams : ∀ (a : GroupNo) (y : Group), (s.setGroup g (some grp')).groups[a] = some y →
      ∃ y', s.groups[a] = some y' ∧ y.params = y'.params := by
    intro a y hy
    obtain ⟨rfl, hyg⟩ | ⟨_, hy⟩ := setGroup_lookup hy
    · obtain rfl := Option.some.inj hyg
      exact ⟨grp, hg, hl.params⟩
    · exact ⟨y, hy, rfl⟩
  have hfits' : ∀ y ∈ ((s.setGroup g (some grp')).putRecord x).table, RecordFits s y := by
    intro y hy
    obtain rfl | ⟨hy, _⟩ := hmem y hy
    · exact hfits
    · exact h.tools.recordFits hy
  refine ⟨⟨⟨tableOrdered_of_numbers ho (numbers_putRecord _ x), fun y hy => (hfits' y hy).sound⟩, fun y hy => (hfits' y hy).spent,
    fun y hy => (hfits' y hy).loose, fun y hy a ha => ?_, fun a y hy => ?_, fun a y hy => ?_, fun a y i hy hi => ?_⟩,
    queuesFit_of (t := (s.setGroup g (some grp')).putRecord x) h.queues (AlikeBy.setGroup hg (by rw [hl.kind, hl.queue])) rfl,
    fun a y hy hla hq n hn' => ?_, ⟨fun y hy p hp => ?_, fun p => ?_⟩, h.wheels, h.watchdog⟩
  · have hcarry : ∀ y', ((s.setGroup g (some grp')).groups[a] = some y') → y.wearCarry < y'.params.nominalLoad := by
      intro y' hy'
      obtain ⟨y'', hs, hp⟩ := hparams a y' hy'
      rw [hp]
      exact (hfits' y hy).carry a y'' ha hs
    obtain rfl | ⟨hys, hne⟩ := hmem y hy
    · obtain hnone | ⟨hxg, hk⟩ := hxg
      · rw [hnone] at ha
        cases ha
      · obtain rfl := Option.some.inj (ha.symm.trans hxg)
        have hget := setGroup_get s a (some grp')
        exact ⟨grp', hget, by rw [hn]; exact hl.self.2 hxg, by rw [hl.kind, hk], hcarry grp' hget⟩
    · obtain ⟨y', hy', hm, hk, _⟩ := h.tools.grouped y hys a ha
      by_cases hag : a = g
      · subst hag
        obtain rfl := Option.some.inj (hy'.symm.trans hg)
        have hget := setGroup_get s a (some grp')
        exact ⟨grp', hget, (hl.others _ hne).2 hm, by rw [hl.kind, hk], hcarry grp' hget⟩
      · have hget := (setGroup_get_ne s (some grp') hag).trans hy'
        exact ⟨y', hget, hm, hk, hcarry y' hget⟩
  · have hfound : ∀ m, m ≠ r.number → (∃ z, s.find m = some z ∧ z.group = some a) →
        ∃ z, ((s.setGroup g (some grp')).putRecord x).find m = some z ∧ z.group = some a := fun m hm hz => by rwa [hfind m hm]
    obtain ⟨rfl, hyg⟩ | ⟨hag, hy⟩ := setGroup_lookup (s := s) hy
    · obtain rfl := Option.some.inj hyg
      obtain ⟨_, _, hnominal, hall⟩ := h.tools.members a grp hg
      refine ⟨hl.nodup, hl.length, by rwa [hl.params], fun m hm => ?_⟩
      by_cases hmr : m = r.number
      · subst hmr
        have hxf := find_putRecord_same (s := s.setGroup a (some grp')) (r := x) (x := r) (by rw [hn]; exact find_of_mem ho hr)
        rw [hn] at hxf
        exact ⟨x, hxf, hl.self.1 hm⟩
      · exact hfound m hmr (hall m ((hl.others m hmr).1 hm))
    · obtain ⟨hnodup, hlength, hnominal, hall⟩ := h.tools.members a y hy
      refine ⟨hnodup, hlength, hnominal, fun m hm => hfound m ?_ (hall m hm)⟩
      rintro rfl
      obtain ⟨z, hz, hza⟩ := hall _ hm
      obtain rfl := Option.some.inj (hz.symm.trans (find_of_mem ho hr))
      obtain hrg | hrg := hrg <;> rw [hrg] at hza
      · cases hza
      · exact hag (Option.some.inj hza).symm
  · obtain ⟨y', hy', hp⟩ := hparams a y hy
    rw [hp]
    exact h.tools.params a y' hy'
  · obtain ⟨rfl, hyg⟩ | ⟨_, hy⟩ := setGroup_lookup (s := s) hy
    · obtain rfl := Option.some.inj hyg
      exact hl.cursor i hi
    · exact h.tools.cursor a y i hy hi
  · by_cases hnr : n = r.number
    · subst hnr
      rw [← Bool.not_eq_true]
      intro he
      obtain ⟨z, hz, hza⟩ := (eligible_iff _ a _).1 he
      have hxf := find_putRecord_same (s := s.setGroup g (some grp')) (r := x) (x := r) (by rw [hn]; exact find_of_mem ho hr)
      rw [hn, hz] at hxf
      obtain rfl := Option.some.inj hxf
      exact hla (hlate a ((eligibleIn_iff z a).2 hza))
    · rw [eligible_congr a (hfind n hnr)]
      obtain ⟨rfl, hyg⟩ | ⟨_, hy⟩ := setGroup_lookup (s := s) hy
      · obtain rfl := Option.some.inj hyg
        exact h.served a grp hg hla (hl.queue ▸ hq) n ((hl.others n hnr).1 hn')
      · exact h.served a y hy hla hq n hn'
  · obtain rfl | ⟨hy, _⟩ := hmem y hy
    · rw [hxs] at hp
      cases hp
    · exact h.seats.seated y hy p hp
  · have hmeets : Meets (s.setGroup g (some grp')) p (c p) := meets_of (h.seats.meets p) (fun _ hP => heldBy_congr hP rfl)
      (fun hE => emptyAt_congr hE rfl) rfl rfl fun _ _ => rfl
    exact meets_put_ne (s := s.setGroup g (some grp')) ho hr hn (by rw [hrs]; nofun) (by rw [hxs]; nofun) hmeets

end Regroup

/-! ### LINK -/

theorem relisted_insertMember {grp : Group} (hnodup : grp.members.Nodup) {n i : Nat} (hn : n ∉ grp.members)
    (hlength : grp.members.length < 12)
    (hcursor : ∀ c, grp.cursor = some c → grp.params.policy = .rotate ∧ c < grp.members.length) :
    Relisted grp n True (grp.insertMember i n) := by
  have hperm : (grp.insertMember i n).members.Perm (n :: grp.members) := by
    refine List.perm_middle.trans (List.Perm.cons n ?_)
    rw [List.take_append_drop]
  have hlen : (grp.insertMember i n).members.length = grp.members.length + 1 := by
    rw [hperm.length_eq, List.length_cons]
  refine ⟨rfl, rfl, rfl, fun m hm => ?_, ?_, ?_, by omega, fun c hc => ?_⟩
  · rw [hperm.mem_iff, List.mem_cons, or_iff_right hm]
  · rw [hperm.mem_iff]
    exact iff_of_true List.mem_cons_self trivial
  · exact hperm.nodup_iff.2 (List.nodup_cons.2 ⟨hn, hnodup⟩)
  · obtain ⟨c', hc', rfl⟩ := Option.map_eq_some_iff.1 (hc : grp.cursor.map _ = some c)
    obtain ⟨hp, hlt⟩ := hcursor c' hc'
    refine ⟨hp, ?_⟩
    rw [hlen]
    split <;> omega

section Link

variable {s : State} (h : Coherent s calm none)

include h

theorem linkRecord_coherent {g : GroupNo} {grp : Group} {r : ToolRecord} (hr : r ∈ s.table) (hg : s.groups[g] = some grp)
    (hloose : r.group = none) (hkind : r.kind = grp.kind) (hlength : grp.members.length < 12) (index : Nat) :
    Coherent (linkRecord s g grp r index) calm none := by
  have hfits := h.tools.recordFits hr
  obtain ⟨_, hcarry⟩ := hfits.loose hloose
  obtain ⟨hnodup, _, hnominal, hall⟩ := h.tools.members g grp hg
  have hseat : r.seat = none := by
    by_contra hne
    obtain ⟨q, hq⟩ := Option.ne_none_iff_exists'.1 hne
    exact (h.seats.seated r hr q hq).1 hloose
  have hnot : r.number ∉ grp.members := by
    intro hmem
    obtain ⟨y, hy, hyg⟩ := hall _ hmem
    obtain rfl := Option.some.inj (hy.symm.trans (find_of_mem h.ordered hr))
    rw [hloose] at hyg
    cases hyg
  generalize hx : ({ r with group := some g, wearCarry := min r.wearCarry (grp.params.nominalLoad - 1) } : ToolRecord) = linked
  generalize hy : ({ linked with warned := computedWarning linked (some grp.params.warnMargin) } : ToolRecord) = x
  have hxr : x = { r with
      group := some g, wearCarry := min r.wearCarry (grp.params.nominalLoad - 1), warned := x.warned } := by
    rw [← hy, ← hx]
  have hxfits : RecordFits s x := by
    rw [hxr]
    refine ⟨recordSound_regrouped hfits.sound _ _ _, hfits.spent, nofun, fun a y ha hy => ?_⟩
    obtain rfl := Option.some.inj ha
    obtain rfl := Option.some.inj (hy.symm.trans hg)
    change min r.wearCarry _ < _
    rw [hcarry]
    omega
  have hxn : x.number = r.number := by rw [hxr]
  have hxg : x.group = some g := by rw [hxr]
  have hrelisted := relisted_insertMember (i := min index grp.members.length) hnodup hnot hlength
    fun c hc => h.tools.cursor g grp c hg hc
  have hput := (coherent_weaken (lateOf x) h).regroup hr hg (.inl hloose) (.inr ⟨hxg, by rw [hxr]; exact hkind⟩) hxn hxfits hseat
    (by rw [hxr]; exact hseat) (grp' := grp.insertMember (min index grp.members.length) r.number)
    ⟨hrelisted.kind, hrelisted.params, hrelisted.queue, hrelisted.others, hrelisted.self.trans (iff_of_true trivial hxg),
      hrelisted.nodup, hrelisted.length, hrelisted.cursor⟩ fun _ he => eligibleIn_lateOf he
  have hfound : ((s.setGroup g (some (grp.insertMember (min index grp.members.length) r.number))).putRecord x).find r.number
      = some x := by
    rw [← hxn]
    exact find_putRecord_same (s := s.setGroup g _) (x := r) (by rw [hxn]; exact find_of_mem h.ordered hr)
  have hinform := hput.inform hfound
  subst hy hx
  exact hinform

theorem linkCommand_coherent (g : Byte) (t : Half) (x : Byte) : Coherent (linkCommand g t x s).1 calm none := by
  unfold linkCommand
  split
  · split
    · next hg =>
      split
      · next r hf =>
        split_ifs with hloose hkind hlength hb
        case neg =>
          exact linkRecord_coherent h (find_mem hf) hg (Option.not_isSome_iff_eq_none.1 hloose) (not_not.1 hkind)
            (Nat.lt_of_not_le hlength) _
        all_goals exact h
      · exact h
    · exact h
  · exact h

end Link

/-! ### UNLINK and RETIRE -/

theorem relisted_without {grp : Group} (hnodup : grp.members.Nodup) (hlength : grp.members.length ≤ 12) {n : Nat}
    (hn : n ∈ grp.members) (hcursor : ∀ c, grp.cursor = some c → grp.params.policy = .rotate ∧ c < grp.members.length) :
    Relisted grp n False (without grp n) := by
  have hlen : (without grp n).members.length = grp.members.length - 1 := List.length_erase_of_mem hn
  refine ⟨rfl, rfl, rfl, fun m hm => List.mem_erase_of_ne hm, iff_of_false (fun hmem => (hnodup.mem_erase_iff.1 hmem).1 rfl) id,
    hnodup.erase n, by omega, fun c hc => ?_⟩
  have hidx := List.idxOf_lt_length_of_mem hn
  unfold without at hc
  cases hcu : grp.cursor with
  | none => simp only [hcu] at hc; cases hc
  | some c' =>
    obtain ⟨hp, hlt⟩ := hcursor c' hcu
    simp only [hcu] at hc
    refine ⟨hp, ?_⟩
    rw [hlen]
    split_ifs at hc <;> obtain rfl := Option.some.inj hc <;> omega

/-- What becomes of a record does not matter when it is removed. -/
theorem removeRecord_putRecord (s : State) (x : ToolRecord) :
    (s.putRecord x).removeRecord x.number = s.removeRecord x.number := by
  have hfilter : (s.putRecord x).table.filter (·.number != x.number) = s.table.filter (·.number != x.number) := by
    rw [putRecord_table]
    induction s.table with
    | nil => rfl
    | cons y l ih =>
      rw [List.map_cons, List.filter_cons, List.filter_cons, ih]
      by_cases hy : y.number = x.number <;> simp [hy]
  unfold State.removeRecord
  rw [hfilter]
  rfl

section Unlink

variable {s : State} (h : Coherent s calm none)

include h

theorem leaveGroup_coherent {r : ToolRecord} (hr : r ∈ s.table) (hs : r.state.atSeat = false) :
    Coherent ((leaveGroup s r).putRecord { r with group := none, wearCarry := 0, warned := false }) calm none := by
  have hfits := h.tools.recordFits hr
  have hseat := recordSound_no_seat hfits.sound hs
  have hloose : RecordFits s { r with group := none, wearCarry := 0, warned := false } :=
    ⟨recordSound_regrouped hfits.sound _ _ _, hfits.spent, fun _ => ⟨rfl, rfl⟩, nofun⟩
  have hnot : ∀ a, ¬ ({ r with group := none, wearCarry := 0, warned := false } : ToolRecord).eligibleIn a = true := by
    intro a he
    obtain ⟨_, ha, _⟩ := (eligibleIn_iff _ a).1 he
    cases ha
  cases hg : r.group with
  | none =>
    rw [leaveGroup_of_loose hg]
    exact h.put_off hr ⟨rfl, rfl, hg.symm⟩ hloose hseat hseat fun a he => absurd he (hnot a)
  | some g =>
    obtain ⟨grp, hgs, hmem, _⟩ := h.tools.grouped r hr g hg
    obtain ⟨hnodup, hlength, _⟩ := h.tools.members g grp hgs
    rw [leaveGroup_of_member hg hgs]
    have hl := relisted_without hnodup hlength hmem fun c hc => h.tools.cursor g grp c hgs hc
    exact h.regroup hr hgs (.inr hg) (.inl rfl) rfl hloose hseat hseat
      ⟨hl.kind, hl.params, hl.queue, hl.others, hl.self.trans (iff_of_false id nofun), hl.nodup, hl.length, hl.cursor⟩
      fun a he => absurd he (hnot a)

theorem unlinkCommand_coherent (t : Half) : Coherent (unlinkCommand t s).1 calm none := by
  unfold unlinkCommand
  split
  · split
    · next r hf =>
      split_ifs with hg hs
      · exact h
      · exact h
      · exact leaveGroup_coherent h (find_mem hf) (Bool.not_eq_true _ ▸ hs)
    · exact h
  · exact h

/-- RETIRE: the record leaves its group, and the table. -/
theorem removeRecord_coherent {r : ToolRecord} (hr : r ∈ s.table) (hs : r.state.atSeat = false) :
    Coherent ((leaveGroup s r).removeRecord r.number) calm none := by
  have hleft := leaveGroup_coherent h hr hs
  have hseat := recordSound_no_seat (h.tools.recordFits hr).sound hs
  have hremoved := removeRecord_putRecord (leaveGroup s r) { r with group := none, wearCarry := 0, warned := false }
  rw [← hremoved]
  refine hleft.loose ⟨hleft.ordered.1.sublist (List.filter_sublist.map _), (List.length_filter_le _ _).trans hleft.ordered.2⟩
    (fun y hy => .inl (List.mem_of_mem_filter hy)) fun y hy => ?_
  by_cases hyn : y.number = r.number
  · obtain rfl | ⟨_, hne⟩ := mem_putRecord_ne hy
    · exact .inr ⟨rfl, hseat⟩
    · exact absurd hyn hne
  · exact .inl (List.mem_filter.2 ⟨hy, by simpa using hyn⟩)

theorem retireCommand_coherent (t : Half) : Coherent (retireCommand t s).1 calm none := by
  unfold retireCommand
  split
  · split
    · next r hf =>
      split_ifs with hs
      · exact h
      · obtain rfl := find_number hf
        exact removeRecord_coherent h (find_mem hf) (Bool.not_eq_true _ ▸ hs)
    · exact h
  · exact h

end Unlink

end Sys2Proof.Proofs

/-! DEFINE (R55 to R58): a group without members and seats made or undone, and one in use redefined. -/

namespace Sys2Proof.Proofs

open Sys2Proof.Machine Sys2Proof.Safety Sys2Proof.Laws

/-! ### A group not in use -/

section Unused

variable {s : State} {c : SeatNo → Claim} {late : Option GroupNo} {g : GroupNo}

/-- A group that is not in use is undefined, or made without members. -/
theorem Coherent.renew (h : Coherent s c late) (hu : ¬ InUse s g) {o : Option Group}
    (ho : ∀ grp, o = some grp → grp.members = [] ∧ grp.cursor = none ∧ grp.queue = [] ∧ ParamsSound grp.params) :
    Coherent (s.setGroup g o) c late := by
  have hseat : ∀ q : SeatNo, s.seats[q].group ≠ some g := fun q hq => hu (.inr ⟨q, hq⟩)
  have hrecord : ∀ r ∈ s.table, ∀ a, r.group = some a → a ≠ g := by
    rintro r hr a ha rfl
    obtain ⟨grp, hg, hm, _⟩ := h.tools.grouped r hr a ha
    exact hu (.inl ⟨grp, hg, List.ne_nil_of_mem hm⟩)
  refine ⟨⟨h.tools.table, h.tools.spent, h.tools.loose, fun r hr a ha => ?_, fun a y hy => ?_, fun a y hy => ?_,
    fun a y i hy hi => ?_⟩, ⟨fun a y hy => ?_, h.queues.bound, fun q a hq => ?_⟩, fun a y hy hl hq => ?_,
    ⟨h.seats.seated, fun q => meets_of (h.seats.meets q) (fun _ hP => heldBy_congr hP rfl) (fun hE => emptyAt_congr hE rfl)
      rfl rfl fun _ _ => rfl⟩, h.wheels, h.watchdog⟩
  · rw [setGroup_get_ne s o (hrecord r hr a ha)]
    exact h.tools.grouped r hr a ha
  · obtain ⟨_, hy⟩ | ⟨_, hy⟩ := setGroup_lookup hy
    · obtain ⟨hm, _, _, hp⟩ := ho y hy
      rw [hm]
      exact ⟨.nil, Nat.zero_le _, hp.nominalLoad.1, nofun⟩
    · exact h.tools.members a y hy
  · obtain ⟨_, hy⟩ | ⟨_, hy⟩ := setGroup_lookup hy
    · exact (ho y hy).2.2.2
    · exact h.tools.params a y hy
  · obtain ⟨_, hy⟩ | ⟨_, hy⟩ := setGroup_lookup hy
    · rw [(ho y hy).2.1] at hi
      cases hi
    · exact h.tools.cursor a y i hy hi
  · obtain ⟨_, hy⟩ | ⟨_, hy⟩ := setGroup_lookup hy
    · rw [(ho y hy).2.2.1]
      exact ⟨.nil, nofun⟩
    · exact h.queues.queue a y hy
  · have ha : a ≠ g := by
      rintro rfl
      exact hseat q hq
    rw [setGroup_get_ne s o ha]
    exact h.queues.kinds q a hq
  · obtain ⟨_, hy⟩ | ⟨_, hy⟩ := setGroup_lookup hy
    · exact absurd (ho y hy).2.2.1 hq
    · exact h.served a y hy hl hq

end Unused

/-! ### A redefinition -/

/-- Filter timers stopped leave a wheel seat fitting. -/
theorem wheelFits_stopped {x : Wheel} {v : Service} {partOpen fault : Bool} (h : WheelFits x v partOpen fault)
    {loss overload contact : Option WatchTimer} (hl : loss ≠ none → x.loss ≠ none) (ho : overload ≠ none → x.overload ≠ none)
    (hc : contact ≠ none → x.contact ≠ none) :
    WheelFits { x with loss := loss, overload := overload, contact := contact } v partOpen fault where
  resting := h.resting
  cutTimer := h.cutTimer
  phases := h.phases
  load := h.load
  cutSeen := h.cutSeen
  checks hk := by
    obtain ⟨hv, hp, hf, hn⟩ := h.checks hk
    exact ⟨hv, hp, hf, by_contra fun hne => hc hne hn⟩
  loaded hk := h.loaded (hk.imp hl ho)
  touching hk := h.touching (hc hk)

/-- A record rewritten in its wear carry and its warned flag. -/
def Recarried (r x : ToolRecord) : Prop := ∃ carry warned, x = { r with wearCarry := carry, warned := warned }

section Recarry

variable {s t : State} {f : ToolRecord → ToolRecord} {q : SeatNo}

theorem heldBy_recarried (ht : t.table = s.table.map f) (hf : ∀ r, Recarried r (f r)) {P : ToolRecord → Prop}
    (hP : ∀ r, P r → P (f r)) (h : HeldBy s q P) : HeldBy t q P := by
  have hseat : ∀ r, (f r).seat = r.seat := fun r => by
    obtain ⟨_, _, hr⟩ := hf r
    rw [hr]
  obtain ⟨r, ⟨hr, hq, hsole⟩, hPr⟩ := h
  refine ⟨f r, ⟨by rw [ht]; exact List.mem_map_of_mem hr, (hseat r).trans hq, fun y hy hyq => ?_⟩, hP r hPr⟩
  rw [ht] at hy
  obtain ⟨z, hz, rfl⟩ := List.mem_map.1 hy
  rw [hsole z hz ((hseat z).symm.trans hyq)]

theorem emptyAt_recarried (ht : t.table = s.table.map f) (hf : ∀ r, Recarried r (f r)) (h : EmptyAt s q) : EmptyAt t q := by
  intro y hy
  rw [ht] at hy
  obtain ⟨z, hz, rfl⟩ := List.mem_map.1 hy
  obtain ⟨_, _, hr⟩ := hf z
  rw [hr]
  exact h z hz

theorem seatSound_recarried (ht : t.table = s.table.map f) (hf : ∀ r, Recarried r (f r)) (hseats : t.seats = s.seats)
    (hstations : t.stations = s.stations) (h : SeatSound s q) : SeatSound t q := by
  have hstate : ∀ r, (f r).state = r.state := fun r => by
    obtain ⟨_, _, hr⟩ := hf r
    rw [hr]
  have hend : ∀ r, HasEnd (f r) ↔ HasEnd r := fun r => by
    obtain ⟨_, _, hr⟩ := hf r
    rw [hr]
  obtain ⟨vacant, changing, running, due, halted⟩ := h
  refine ⟨?_, ?_, ?_, ?_, ?_⟩ <;> rw [hseats]
  · exact fun hv => emptyAt_recarried ht hf (vacant hv)
  · exact fun hv => heldBy_recarried ht hf (fun r hr => (hstate r).trans hr) (changing hv)
  · exact fun hv => heldBy_recarried ht hf (fun r hr => by rwa [hstate, hend]) (running hv)
  · rw [hstations]
    exact fun hv => ⟨(due hv).1, heldBy_recarried ht hf (fun r hr => by rwa [hstate, hend]) (due hv).2⟩
  · exact fun hv => ⟨(halted hv).1, heldBy_recarried ht hf (fun r hr => (hstate r).trans hr) (halted hv).2⟩

end Recarry

section Redefine

variable {s : State} {g : GroupNo} {grp : Group} {p : Params}

/-- The record of a member, or of another, as a redefinition leaves it. -/
def redefinedRecord (g : GroupNo) (grp : Group) (p : Params) (r : ToolRecord) : ToolRecord :=
  rewarned g grp p (carryClamped g grp p r)

theorem recarried_redefined (r : ToolRecord) : Recarried r (redefinedRecord g grp p r) := by
  rw [redefinedRecord, rewarned_carryClamped]
  split
  exacts [⟨_, _, rfl⟩, ⟨r.wearCarry, r.warned, rfl⟩]

theorem redefinedRecord_ne {r : ToolRecord} (h : r.group ≠ some g) : redefinedRecord g grp p r = r := by
  rw [redefinedRecord, rewarned_carryClamped, if_neg h]

theorem redefinedRecord_carry {r : ToolRecord} (hg : r.group = some g) (hp : 1 ≤ p.nominalLoad)
    (h : r.wearCarry < grp.params.nominalLoad) : (redefinedRecord g grp p r).wearCarry < p.nominalLoad := by
  rw [redefinedRecord, rewarned_carryClamped, if_pos hg]
  change (if p.nominalLoad = grp.params.nominalLoad then r.wearCarry else min r.wearCarry (p.nominalLoad - 1)) < p.nominalLoad
  split <;> omega

theorem recordFits_redefined (h : ToolsFit s) (hg : s.groups[g] = some grp) (hp : ParamsSound p) {t : State}
    (hgroups : t.groups = s.groups.set g (some { grp with
      params := p, cursor := if p.policy = grp.params.policy then grp.cursor else none }))
    {r : ToolRecord} (hr : r ∈ s.table) : RecordFits t (redefinedRecord g grp p r) := by
  have hfits := h.recordFits hr
  by_cases hrg : r.group = some g
  · obtain ⟨_, _, hx⟩ := recarried_redefined (g := g) (grp := grp) (p := p) r
    refine ⟨?_, ?_, fun hn => ?_, fun a y ha hy => ?_⟩
    · rw [hx]
      exact recordSound_regrouped hfits.sound _ _ _
    · rw [hx]
      exact hfits.spent
    · rw [hx] at hn
      cases hn.symm.trans hrg
    · have hra : r.group = some a := by
        rw [hx] at ha
        exact ha
      obtain rfl := Option.some.inj (hrg.symm.trans hra)
      rw [hgroups, set_get_self] at hy
      obtain rfl := Option.some.inj hy
      exact redefinedRecord_carry hrg hp.nominalLoad.1 (hfits.carry g grp hrg hg)
  · rw [redefinedRecord_ne hrg]
    refine ⟨hfits.sound, hfits.spent, hfits.loose, fun a y ha hy => hfits.carry a y ha ?_⟩
    rwa [hgroups, set_get_ne _ _ (by rintro rfl; exact hrg ha)] at hy

theorem redefine_coherent (h : Coherent s calm none) (hg : s.groups[g] = some grp) (hp : ParamsSound p) :
    Coherent (redefine s g grp p) calm none := by
  have hr := redefine_redefined s g grp p
  have hrest := redefine_keepsRest s g grp p
  generalize redefine s g grp p = t at hr hrest
  have hrecords : t.table = s.table.map (redefinedRecord g grp p) := hr.records
  have hsame : ∀ r, SameTool r (redefinedRecord g grp p r) := fun r => by
    obtain ⟨_, _, hx⟩ := recarried_redefined (g := g) (grp := grp) (p := p) r
    rw [hx]
    exact ⟨rfl, rfl, rfl⟩
  have hlookup : ∀ a y, t.groups[a] = some y → a = g ∧ some { grp with
      params := p, cursor := if p.policy = grp.params.policy then grp.cursor else none } = some y
      ∨ a ≠ g ∧ s.groups[a] = some y := by
    intro a y hy
    rw [hr.groups] at hy
    exact setGroup_lookup hy
  have halike : ∀ {α : Type} (π : Group → α), π { grp with
      params := p, cursor := if p.policy = grp.params.policy then grp.cursor else none } = π grp → AlikeBy π s t := by
    intro α π hπ a
    rw [hr.groups]
    exact AlikeBy.setGroup hg hπ a
  refine ⟨?_, queuesFit_of h.queues (halike _ rfl) hr.seats, ?_, ⟨fun x hx q hq => ?_, fun q => ?_⟩, fun w => ?_, ?_⟩
  · refine toolsFit_of h.tools (fun r => (hsame r).number) hrecords (fun r _ => hsame r)
      (fun r hmem => recordFits_redefined h.tools hg hp hr.groups hmem) (halike _ rfl) (fun a y hy => ?_) fun a y i hy hi => ?_
    · obtain ⟨_, hy⟩ | ⟨_, hy⟩ := hlookup a y hy
      · obtain rfl := Option.some.inj hy
        exact hp
      · exact h.tools.params a y hy
    · obtain ⟨_, hy⟩ | ⟨_, hy⟩ := hlookup a y hy
      · obtain rfl := Option.some.inj hy
        obtain ⟨hpol, hc⟩ := Option.ite_none_right_eq_some.1 (hi : (if _ then _ else _) = _)
        exact hpol ▸ h.tools.cursor g grp i hg hc
      · exact h.tools.cursor a y i hy hi
  · refine servedBut_of h.served (halike _ rfl) fun a n _ he => ?_
    obtain ⟨x, hx, hxs, hxg, hxe⟩ := (eligible_iff t a n).1 he
    rw [find_map_table s t _ (fun r => (hsame r).number) hrecords] at hx
    obtain ⟨r, hf, rfl⟩ := Option.map_eq_some_iff.1 hx
    obtain ⟨_, _, hrx⟩ := recarried_redefined (g := g) (grp := grp) (p := p) r
    rw [hrx] at hxs hxg hxe
    exact (eligible_iff s a n).2 ⟨r, hf, hxs, hxg, hxe⟩
  · rw [hrecords] at hx
    obtain ⟨r, hmem, rfl⟩ := List.mem_map.1 hx
    obtain ⟨_, _, hrx⟩ := recarried_redefined (g := g) (grp := grp) (p := p) r
    rw [hrx] at hq ⊢
    rw [hr.seats]
    exact h.seats.seated r hmem q hq
  · exact seatSound_recarried hrecords recarried_redefined hr.seats hrest.stations (h.sound_at rfl)
  · rw [WheelFitsAt, hr.seats, hrest.stations, hrest.scan, hr.wheels]
    split
    · refine wheelFits_stopped (h.wheels w) ?_ ?_ ?_ <;> intro hn <;> split at hn <;> simp_all
    · exact h.wheels w
  · rw [hrest.link]
    exact h.watchdog

end Redefine

theorem clamp_bounds {lo hi : Nat} (h : lo ≤ hi) (x : Nat) : lo ≤ clamp lo hi x ∧ clamp lo hi x ≤ hi := by
  unfold clamp
  omega

theorem paramsSound_paramsArg (a : DefineArgs) (pol : Policy) : ParamsSound (paramsArg a pol) where
  nominalLoad := clamp_bounds (by omega) _
  warnMargin := clamp_bounds (by omega) _
  rollWear := Nat.le_of_lt_succ a.rollWear.isLt
  lossFloor := (clamp_bounds (by omega) _).2
  overloadCeiling := (clamp_bounds (by omega) _).2
  contactLevel := (clamp_bounds (by omega) _).2
  engageDelay := Nat.le_of_lt_succ a.engageDelay.isLt
  blankingTime := Nat.le_of_lt_succ a.blankingTime.isLt
  filterTime := clamp_bounds (by omega) _
  maxCutTime := Nat.le_of_lt_succ a.maxCutTime.isLt

theorem defineGroup_coherent {s : State} (h : Coherent s calm none) {g : GroupNo} {kind : Option Kind} {p : Params}
    (hp : ParamsSound p) (hu : kind = s.groups[g].map (·.kind) ∨ ¬ InUse s g) : Coherent (defineGroup s g kind p) calm none := by
  have hnew : ∀ k grp, some (newGroup k p) = some grp →
      grp.members = [] ∧ grp.cursor = none ∧ grp.queue = [] ∧ ParamsSound grp.params := by
    rintro k grp hgrp
    obtain rfl := Option.some.inj hgrp
    exact ⟨rfl, rfl, rfl, hp⟩
  have hundefined : s.groups[g] = none → ¬ InUse s g := by
    rintro hg (⟨grp, hgrp, _⟩ | ⟨q, hq⟩)
    · cases hg.symm.trans hgrp
    · obtain ⟨grp, hgrp⟩ := h.group hq
      cases hg.symm.trans hgrp
  unfold defineGroup
  split
  · exact h
  · next k hg => exact h.renew (hundefined hg) (hnew k)
  · next hg =>
    refine h.renew (hu.resolve_left ?_) nofun
    rw [hg]
    nofun
  · next grp k hg =>
    split
    · exact redefine_coherent h hg hp
    · next hk =>
      refine h.renew (hu.resolve_left fun he => hk ?_) (hnew k)
      rw [hg] at he
      exact (Option.some.inj he).symm

theorem defineCommand_coherent {s : State} (h : Coherent s calm none) (a : DefineArgs) :
    Coherent (defineCommand a s).1 calm none := by
  unfold defineCommand
  split
  · split
    · exact h
    · next hfree =>
      rw [inUse_iff] at hfree
      exact defineGroup_coherent h (paramsSound_paramsArg a _) (by tauto)
  · exact h

end Sys2Proof.Proofs

/-! A seat bound and unbound (R76 to R78), and a record given up (R13). -/

namespace Sys2Proof.Proofs

open Sys2Proof.Machine Sys2Proof.Safety Sys2Proof.Laws

section Binding

variable {s : State} {c : SeatNo → Claim} {late : Option GroupNo} {q : SeatNo} {g : GroupNo} {grp : Group} {r : ToolRecord}

/-! ### BIND -/

theorem Coherent.bind (h : Coherent s c late) (hc : c q = .sound) (hs : s.seats[q].service = .unbound)
    (hg : s.groups[g] = some grp) (hk : grp.kind = .wheel ↔ q.val % 4 < 2) :
    Coherent (s.setSeat q { s.seats[q] with group := some g }) (Function.update c q .vacated) late := by
  have hempty := (h.sound_at hc).vacant (.inl hs)
  have hnone := inNoQueue_of h.queues (q := q) (.inr (by rw [hs]; nofun))
  have hservice : ∀ p : SeatNo, (s.setSeat q { s.seats[q] with group := some g }).seats[p].service = s.seats[p].service := by
    intro p
    by_cases hp : p = q
    · subst hp
      rw [setSeat_get]
    · rw [setSeat_get_ne s _ hp]
  refine ⟨toolsFit_congr h.tools rfl rfl, ⟨fun a y hy => ?_, fun p hp => ?_, fun p a hp => ?_⟩, servedBut_congr h.served rfl rfl,
    ⟨fun x hx p hp => ?_, fun p => ?_⟩, fun w => ?_, h.watchdog⟩
  · obtain ⟨hnodup, hall⟩ := h.queues.queue a y hy
    refine ⟨hnodup, fun p hp => ?_⟩
    have hpq : p ≠ q := fun hpq : p = q => hnone a y hy (hpq ▸ hp)
    rw [setSeat_get_ne s _ hpq, Function.update_of_ne hpq]
    exact hall p hp
  · have hpq : p ≠ q := by
      rintro rfl
      exact hp (Function.update_self ..)
    rw [Function.update_of_ne hpq] at hp
    rw [setSeat_get_ne s _ hpq]
    exact h.queues.bound p hp
  · by_cases hpq : p = q
    · subst hpq
      rw [setSeat_get] at hp
      obtain rfl := Option.some.inj hp
      exact ⟨grp, hg, hk, fun hne => absurd (Function.update_self ..) hne⟩
    · rw [setSeat_get_ne s _ hpq] at hp ⊢
      rw [Function.update_of_ne hpq]
      exact h.queues.kinds p a hp
  · have hpq : p ≠ q := by
      rintro rfl
      exact hempty x hx hp
    rw [setSeat_get_ne s _ hpq]
    exact h.seats.seated x hx p hp
  · by_cases hpq : p = q
    · subst hpq
      rw [Function.update_self]
      refine ⟨by rw [setSeat_get]; nofun, hempty, ?_⟩
      exact h.restedAt (q := p) (not_holdsTool_of hs rfl)
    · rw [Function.update_of_ne hpq]
      exact meets_of (h.seats.meets p) (fun _ hP => heldBy_congr hP rfl) (fun hE => emptyAt_congr hE rfl)
        (setSeat_get_ne s _ hpq) rfl fun _ _ => rfl
  · rw [WheelFitsAt, hservice]
    exact h.wheels w

/-! ### A seat leaves its group -/

/-- The queues without the seat. -/
theorem leaveQueue_groups (h : QueuesFit s c) (q : SeatNo) (a : GroupNo) : (leaveQueue s q).groups[a]
    = s.groups[a].map fun y => { y with queue := y.queue.filter (· != q) } := by
  have hself : ∀ y, s.groups[a] = some y → s.seats[q].group ≠ some a →
      s.groups[a] = s.groups[a].map fun y => { y with queue := y.queue.filter (· != q) } := by
    intro y hy hne
    have hnot : q ∉ y.queue := fun hq => hne ((h.queue a y hy).2 q hq).2.1
    rw [hy, Option.map_some, List.filter_eq_self.2 fun p hp => bne_iff_ne.2 fun hpq : p = q => hnot (hpq ▸ hp)]
  cases ha : s.groups[a] with
  | none =>
    rw [Option.map_none]
    unfold leaveQueue
    split
    · next g _ =>
      split
      · next grp hg =>
        rw [setGroup_get_ne s _ (by rintro rfl; cases ha.symm.trans hg), ha]
      · exact ha
    · exact ha
  | some y =>
    by_cases hqa : s.seats[q].group = some a
    · simp only [leaveQueue, hqa, ha]
      exact setGroup_get s a _
    · rw [← ha, ← hself y ha hqa]
      unfold leaveQueue
      split
      · next g hg =>
        split
        · exact setGroup_get_ne s _ fun hag => hqa (hag ▸ hg)
        · rfl
      · rfl

theorem leaveQueue_else (s : State) (q : SeatNo) : leaveQueue s q = { s with groups := (leaveQueue s q).groups } := by
  unfold leaveQueue
  split
  · split <;> rfl
  · rfl

/-- A seat without a record, and out of service, is unbound. -/
theorem Coherent.unbind (h : Coherent s c late) (hempty : EmptyAt s q) (hrest : RestedAt s q) :
    Coherent ((leaveQueue s q).setSeat q { service := .unbound, group := none }) (Function.update c q .sound) late := by
  have hgroups := leaveQueue_groups h.queues q
  have helse := leaveQueue_else s q
  generalize (leaveQueue s q).groups = groups at hgroups helse
  rw [helse]
  generalize ht : ({ s with groups := groups } : State).setSeat q { service := .unbound, group := none } = t
  have htg : t.groups = groups := by rw [← ht]; rfl
  have htt : t.table = s.table := by rw [← ht]; rfl
  have htw : t.wheels = s.wheels := by rw [← ht]; rfl
  have hts : t.stations = s.stations := by rw [← ht]; rfl
  have htf : t.scan = s.scan := by rw [← ht]; rfl
  have hself : t.seats[q] = { service := .unbound, group := none } := by
    rw [← ht]
    exact setSeat_get _ q _
  have hother : ∀ {p : SeatNo}, p ≠ q → t.seats[p] = s.seats[p] := fun hp => by
    rw [← ht]
    exact setSeat_get_ne _ _ hp
  have hlookup : ∀ {a : GroupNo} {y : Machine.Group}, t.groups[a] = some y →
      ∃ y' : Machine.Group, s.groups[a] = some y' ∧ y = { y' with queue := y'.queue.filter (· != q) } := by
    intro a y hy
    rw [htg, hgroups] at hy
    obtain ⟨y', hy', hyy⟩ := Option.map_eq_some_iff.1 hy
    exact ⟨y', hy', hyy.symm⟩
  have halike : AlikeBy (fun x => (x.kind, x.members)) s t := fun a => by
    rw [htg, hgroups, Option.map_map]
    rfl
  refine ⟨toolsFit_of h.tools (f := id) (fun _ => rfl) (by rw [htt, List.map_id]) (fun _ _ => ⟨rfl, rfl, rfl⟩) (fun x hx => ?_)
    halike (fun a y hy => ?_) fun a y i hy hi => ?_, ⟨fun a y hy => ?_, fun p hp => ?_, fun p a hp => ?_⟩, fun a y hy hl hq n hn => ?_,
    ⟨fun x hx p hp => ?_, fun p => ?_⟩, fun w => ?_, by rw [← ht]; exact h.watchdog⟩
  · obtain ⟨hsound, hspent, hloose, hcarry⟩ := h.tools.recordFits hx
    refine ⟨hsound, hspent, hloose, fun a y ha hy => ?_⟩
    obtain ⟨y', hy', rfl⟩ := hlookup hy
    exact hcarry a y' ha hy'
  · obtain ⟨y', hy', rfl⟩ := hlookup hy
    exact h.tools.params a y' hy'
  · obtain ⟨y', hy', rfl⟩ := hlookup hy
    exact h.tools.cursor a y' i hy' hi
  · obtain ⟨y', hy', rfl⟩ := hlookup hy
    obtain ⟨hnodup, hall⟩ := h.queues.queue a y' hy'
    refine ⟨hnodup.filter _, fun p hp => ?_⟩
    obtain ⟨hp, hpq⟩ := List.mem_filter.1 hp
    rw [hother (bne_iff_ne.1 hpq), Function.update_of_ne (bne_iff_ne.1 hpq)]
    exact hall p hp
  · by_cases hpq : p = q
    · subst hpq
      rw [hself]
      exact iff_of_true rfl rfl
    · rw [Function.update_of_ne hpq] at hp
      rw [hother hpq]
      exact h.queues.bound p hp
  · have hpq : p ≠ q := by
      rintro rfl
      rw [hself] at hp
      cases hp
    rw [hother hpq] at hp ⊢
    obtain ⟨y, hy, hk, hwait⟩ := h.queues.kinds p a hp
    have hty : t.groups[a] = some { y with queue := y.queue.filter (· != q) } := by rw [htg, hgroups, hy, Option.map_some]
    refine ⟨_, hty, hk, fun hcp hs => List.mem_filter.2 ⟨?_, bne_iff_ne.2 hpq⟩⟩
    rw [Function.update_of_ne hpq] at hcp
    exact hwait hcp hs
  · obtain ⟨y', hy', rfl⟩ := hlookup hy
    rw [eligible_congr a (find_congr_table htt n)]
    refine h.served a y' hy' hl (fun hnil => hq ?_) n hn
    rw [hnil]
    rfl
  · rw [htt] at hx
    have hpq : p ≠ q := by
      rintro rfl
      exact hempty x hx hp
    rw [hother hpq]
    exact h.seats.seated x hx p hp
  · by_cases hpq : p = q
    · subst hpq
      rw [Function.update_self]
      exact seatSound_of_vacant (.inl (by rw [hself])) (emptyAt_congr hempty htt)
    · rw [Function.update_of_ne hpq]
      exact meets_of (h.seats.meets p) (fun _ hP => heldBy_congr hP htt) (fun hE => emptyAt_congr hE htt) (hother hpq)
        (by rw [hts]) fun _ _ => by rw [htw]
  · rw [WheelFitsAt, htw, hts, htf]
    by_cases hpq : seatOfWheel w = q
    · exact wheelFits_of_rested (h.wheels w) (hrest w hpq.symm)
    · rw [hother hpq]
      exact h.wheels w

/-! ### A record given up -/

/-- A record given up without its being condemned (R13). -/
def givenUp (r : ToolRecord) : ToolRecord := { r with state := if HasEnd r then .spent else .available, seat := none }

theorem recordFits_givenUp (h : RecordFits s r) (hs : r.state = .active ∨ r.state = .chosen) : RecordFits s (givenUp r) := by
  have hno : r.state ≠ .suspect ∧ r.state ≠ .broken := by obtain hs | hs := hs <;> rw [hs] <;> decide
  have hsound : RecordSound { r with state := if HasEnd r then .spent else .available, seat := none, cause := r.cause } := by
    refine recordSound_moved h.sound (iff_of_false nofun ?_) (iff_of_false ?_ ?_) fun hv => (ended_isEmpty_iff r).2 fun he => ?_
    · split <;> rintro (hv | hv | hv) <;> cases hv
    · rw [recordSound_no_cause h.sound hno.1 hno.2]
      nofun
    · split <;> rintro (hv | hv) <;> cases hv
    · rw [if_pos he] at hv
      obtain hv | hv := hv <;> cases hv
  refine recordFits_moved h hsound fun hv => by_contra fun he => ?_
  rw [if_neg he] at hv
  cases hv

/-- The record of a seat out of service given up: its group may have grants to make. -/
theorem Coherent.giveUp (h : Coherent s c none) (hh : s.holder q = some r) (hs : r.state = .active ∨ r.state = .chosen)
    (hrest : RestedAt s q) : Coherent (s.putRecord (givenUp r)) (Function.update c q .vacated) (lateOf (givenUp r)) :=
  (coherent_weaken _ h).vacate hh hrest ⟨rfl, rfl, rfl⟩ (recordFits_givenUp (h.tools.recordFits (holder_mem hh)) hs) rfl
    fun _ he => eligibleIn_lateOf he

theorem find_givenUp (h : Coherent s c late) (hh : s.holder q = some r) : (s.putRecord (givenUp r)).find r.number = some (givenUp r) :=
  find_putRecord_same (r := givenUp r) (x := r) (find_of_mem h.ordered (holder_mem hh))

/-- A sound seat's record is given up unless the seat is HALTED. -/
theorem SeatSound.givesUp (h : SeatSound s q) (hh : s.holder q = some r) (hs : s.seats[q].service ≠ .halted) :
    r.state = .active ∨ r.state = .chosen := by
  obtain ⟨_, ⟨_, hr⟩ | ⟨_, hr, _⟩ | ⟨_, hr, _⟩ | ⟨hv, _⟩⟩ := h.holder_cases hh
  exacts [.inr hr, .inl hr, .inl hr, absurd hv hs]

theorem no_holder_empty (h : s.holder q = none) : EmptyAt s q := fun r hr hq =>
  List.find?_eq_none.1 h r hr (beq_iff_eq.2 hq)

/-! ### UNBIND -/

theorem leaveQueue_putRecord (s : State) (x : ToolRecord) (q : SeatNo) :
    leaveQueue (s.putRecord x) q = (leaveQueue s q).putRecord x := by
  cases hq : s.seats[q].group with
  | none => simp only [leaveQueue, putRecord_seats, hq]
  | some g =>
    cases hg : s.groups[g] with
    | none => simp only [leaveQueue, putRecord_seats, putRecord_groups, hq, hg]
    | some grp =>
      simp only [leaveQueue, putRecord_seats, putRecord_groups, hq, hg]
      rfl

theorem leaveQueue_table (s : State) (q : SeatNo) : (leaveQueue s q).table = s.table := by rw [leaveQueue_else]

/-- A seat that is neither HALTED nor in a cut is unbound. -/
theorem unbindSeat_coherent (h : Coherent s calm none) (hcut : ∀ w, q = seatOfWheel w → ¬ CutOpen s w)
    (hs : s.seats[q].service ≠ .halted) : Coherent (unbindSeat s q) calm none := by
  obtain ⟨hleft, hrest⟩ := h.leave_quiet hcut
  have hseats := leaveService_seats s q
  rw [unbindSeat]
  generalize leaveService s q = u at hleft hrest hseats
  rw [← hseats] at hs
  have htable : ((leaveQueue u q).setSeat q { service := .unbound, group := none }).table = u.table := leaveQueue_table u q
  simp only [holder_congr_table htable]
  cases hh : u.holder q with
  | none => exact (hleft.unbind (no_holder_empty hh) hrest).same rfl
  | some r =>
    have hstate := (hleft.sound_at rfl).givesUp hh hs
    have hgiven := hleft.giveUp hh hstate hrest
    have hempty := (hgiven.vacated_at (Function.update_self ..)).2.1
    have hunbound := hgiven.unbind (q := q) hempty hrest
    rw [Function.update_idem, leaveQueue_putRecord] at hunbound
    have hfind : (((leaveQueue u q).putRecord (givenUp r)).setSeat q { service := .unbound, group := none }).find r.number
        = some (givenUp r) := by
      have hput : ((leaveQueue u q).putRecord (givenUp r)).table = (u.putRecord (givenUp r)).table := by
        rw [← leaveQueue_putRecord, leaveQueue_table]
      exact (find_congr_table (s := u.putRecord (givenUp r))
        (t := ((leaveQueue u q).putRecord (givenUp r)).setSeat q _) hput _).trans (find_givenUp hleft hh)
    have hinform := (hunbound.same rfl).inform hfind
    change Coherent (returnRecord _ r) calm none
    rw [returnRecord_of hstate]
    exact hinform

end Binding

section Commands

variable {s : State} (h : Coherent s calm none)

include h

theorem bindCommand_coherent (seat group : Byte) : Coherent (bindCommand seat group s).1 calm none := by
  unfold bindCommand
  split
  · next q g _ _ =>
    split
    · exact h
    · next hs =>
      split
      · next grp hg =>
        split
        · exact h
        · next hk =>
          have hkind : grp.kind = .wheel ↔ q.val % 4 < 2 := by
            rw [not_not.1 hk, seatKind]
            split <;> simp_all
          have hbound := (h.bind rfl (not_not.1 hs) hg hkind).select_any (Function.update_self ..)
          rw [Function.update_idem] at hbound
          exact hbound.same rfl
      · exact h
  · exact h

theorem not_cutOpen_of_resting {q : SeatNo} (hs : ¬ HoldsTool s q) (w : WheelNo) (hw : q = seatOfWheel w) : ¬ CutOpen s w := by
  rw [CutOpen, (h.restedAt hs w hw).phase]
  rintro (hp | hp) <;> cases hp

theorem unbindCommand_coherent (seat : Byte) : Coherent (unbindCommand seat s).1 calm none := by
  have hquiet : ∀ {q : SeatNo}, s.cutOpenAt q = false → ∀ w, q = seatOfWheel w → ¬ CutOpen s w := by
    rintro q hq w rfl hcut
    rw [(cutOpenAt_iff s _).2 ⟨w, rfl, hcut⟩] at hq
    cases hq
  unfold unbindCommand
  split
  · next q _ =>
    split
    · exact h
    · next hs =>
      exact unbindSeat_coherent h (not_cutOpen_of_resting h (not_holdsTool_of hs rfl))
        (by rw [hs]; nofun)
    · next hs =>
      exact unbindSeat_coherent h (not_cutOpen_of_resting h (not_holdsTool_of hs rfl))
        (by rw [hs]; nofun)
    · next hs =>
      split
      · exact h
      · next hq => exact unbindSeat_coherent h (hquiet (Bool.not_eq_true _ ▸ hq)) (by rw [hs]; nofun)
    · next hs =>
      split
      · exact h
      · next hq => exact unbindSeat_coherent h (hquiet (Bool.not_eq_true _ ▸ hq)) (by rw [hs]; nofun)
    · exact h
  · exact h

end Commands

end Sys2Proof.Proofs

/-! The commands at a bound seat: MOUNT and SWAP (R107 to R113), RELEASE and CONDEMN (R142, R144), CHECK (R146), DRESS
(R42 to R44). -/

namespace Sys2Proof.Proofs

open Sys2Proof.Machine Sys2Proof.Safety Sys2Proof.Laws

/-! ### MOUNT -/

section Mount

variable {s : State} {c : SeatNo → Claim} {late : Option GroupNo} {q : SeatNo} {g : GroupNo} {grp : Group} {r d x : ToolRecord}

theorem wheelFits_fresh {y : Wheel} {v : Service} {partOpen fault : Bool} (h : WheelFits y v partOpen fault) :
    WheelFits (fresh y) v partOpen fault where
  resting _ := ⟨rfl, rfl⟩
  cutTimer := iff_of_false (fun ht => ht rfl) (fun hp => hp.elim nofun nofun)
  phases := iff_of_false (fun ht => ht rfl) (fun hp => hp.elim nofun nofun)
  load := .inl rfl
  cutSeen hs := Bool.noConfusion hs
  checks hk := by
    obtain ⟨hv, _, hf, _⟩ := h.checks hk
    exact ⟨hv, rfl, hf, rfl⟩
  loaded hn := hn.elim (absurd rfl) (absurd rfl)
  touching hn := absurd rfl hn

/-- A seat that is to be RUNNING enters service. -/
theorem Coherent.enterService (h : Coherent (s.setService q .running) c late) (hc : c q ≠ .vacated) :
    Coherent (Machine.enterService s q) c late := by
  obtain ⟨w, rfl⟩ | hd := seat_cases q
  · rw [enterService_of_wheel]
    exact h.wheel (wheelFits_fresh (h.wheels w)) (.inl hc)
  · rwa [enterService_of_dresser s hd]

/-- A sound record goes ACTIVE at a seat. -/
theorem recordFits_mounted (h : RecordFits s r) (hs : r.state = .available ∨ r.state = .chosen) (q : SeatNo) :
    RecordFits s { r with state := .active, seat := some q } := by
  have hno : r.cause = none := by
    refine recordSound_no_cause h.sound ?_ ?_ <;> obtain hs | hs := hs <;> rw [hs] <;> decide
  have hsound : RecordSound { r with state := .active, seat := some q, cause := r.cause } := by
    refine recordSound_moved h.sound (iff_of_true rfl (.inr (.inl rfl))) (iff_of_false ?_ nofun) nofun
    rw [hno]
    nofun
  exact recordFits_moved h hsound nofun

/-- A record without an end put in a bound seat out of service, in no queue, goes ACTIVE, and the seat RUNNING. -/
theorem Coherent.mount (h : Coherent s c late) (hr : r ∈ s.table) (hs : r.state = .available ∨ r.state = .chosen)
    (he : ¬ HasEnd r) (hrs : ∀ p, p ≠ q → r.seat ≠ some p) (hsole : Sole s r q) (hg : s.seats[q].group = some g)
    (hrg : r.group = some g) (hq : c q ≠ .sound ∨ s.seats[q].service ≠ .waiting) (hrest : RestedAt s q) :
    Coherent (Machine.enterService (s.putRecord { r with state := .active, seat := some q }) q)
      (Function.update c q .sound) late := by
  refine Coherent.enterService ?_ (by rw [Function.update_self]; nofun)
  have hheld : HeldBy (s.putRecord { r with state := .active, seat := some q }) q fun r => r.state = .active ∧ ¬ HasEnd r :=
    heldBy_put_self (x := { r with state := .active, seat := some q }) hr rfl hsole rfl ⟨rfl, he⟩
  refine h.move (x := { r with state := .active, seat := some q }) hr ⟨rfl, rfl, rfl⟩
    (recordFits_mounted (h.tools.recordFits hr) hs q) (fun p hp => ⟨hrs p hp, fun hpq => hp (Option.some.inj hpq).symm⟩)
    (fun _ => hrg.trans hg.symm) (by rw [hg]; nofun) hq nofun nofun (fun _ ha => absurd ha (not_eligible_of_state nofun))
    (fun w hw => ?_) (seatSound_of_running (setService_service _ q _) (heldBy_congr hheld rfl))
  subst hw
  exact wheelFits_of_rested (h.wheels w) (hrest w rfl)

theorem Coherent.changing_at (h : Coherent s calm late) (hs : s.seats[q].service = .changing) :
    RestedAt s q ∧ ∃ d, s.holder q = some d ∧ Sole s d q ∧ d.state = .chosen ∧ ¬ HasEnd d := by
  refine ⟨h.restedAt (not_holdsTool_of hs rfl), ?_⟩
  obtain ⟨d, hh, hsole, hd⟩ := ((h.sound_at rfl).changing hs).holder
  exact ⟨d, hh, hsole, hd, (ended_isEmpty_iff d).1 ((h.tools.recordFits (holder_mem hh)).sound.unended (.inr hd))⟩

theorem mountChosen_coherent (h : Coherent s calm none) (hs : s.seats[q].service = .changing) (hr : r ∈ s.table)
    (hstate : r.state = .chosen) (hq : r.seat = some q) : Coherent (mountChosen s q r) calm none := by
  have hh := h.holder_of hr hq
  obtain ⟨hrest, d, hd, hsole, _, he⟩ := h.changing_at hs
  obtain rfl := Option.some.inj (hd.symm.trans hh)
  obtain ⟨hg, hdg⟩ := h.holder_group hh
  obtain ⟨g, hg⟩ := Option.ne_none_iff_exists'.1 hg
  have hmount := h.mount hr (.inr hstate) he (fun p hp hqp => hp (Option.some.inj (hqp.symm.trans hq))) hsole hg (hdg.trans hg)
    (.inr (by rw [hs]; nofun)) hrest
  rw [mountChosen_eq]
  rw [← hq] at hmount
  exact coherent_raiseIf (hmount.same rfl) _ _ _

theorem putRecord_comm (s : State) {x y : ToolRecord} (h : x.number ≠ y.number) :
    (s.putRecord x).putRecord y = (s.putRecord y).putRecord x := by
  have htable : ((s.putRecord x).putRecord y).table = ((s.putRecord y).putRecord x).table := by
    simp only [putRecord_table, List.map_map]
    refine List.map_congr_left fun z _ => ?_
    simp only [Function.comp_apply]
    split_ifs <;> simp_all
  change ({ s with table := ((s.putRecord x).putRecord y).table } : State) = _
  rw [htable]
  rfl

/-- MOUNT of an eligible member displaces the chosen record, which goes AVAILABLE: no seat waits for it. -/
theorem mountAlternative_coherent (h : Coherent s calm none) (hs : s.seats[q].service = .changing)
    (hg : s.seats[q].group = some g) (hr : r ∈ s.table) (helig : r.eligibleIn g = true) :
    Coherent (mountAlternative s q g r) calm none := by
  obtain ⟨ha, hrg, he⟩ := (eligibleIn_iff r g).1 helig
  obtain ⟨hrest, d, hh, _, hds, hde⟩ := h.changing_at hs
  obtain ⟨_, hdg⟩ := h.holder_group hh
  obtain ⟨grp, hgs, hmem, _⟩ := h.tools.grouped r hr g hrg
  have hfr := find_of_mem h.ordered hr
  have hqueue : grp.queue = [] := by
    by_contra hne
    have hnone := h.served g grp hgs nofun hne r.number hmem
    rw [(eligible_iff s g r.number).2 ⟨r, hfr, ha, hrg, he⟩] at hnone
    cases hnone
  have hne : d.number ≠ r.number := by
    intro hn
    rw [eq_of_number h.ordered (holder_mem hh) hr hn, ha] at hds
    cases hds
  rw [mountAlternative_eq hgs hqueue hh (find_of_mem h.ordered (holder_mem hh)) hne hds (hdg.trans hg) hde]
  refine coherent_raiseIf ?_ _ _ _
  have hgiven := h.giveUp hh (.inr hds) hrest
  have hgu : givenUp d = { d with state := .available, seat := none } := by rw [givenUp, if_neg hde]
  have hlate : lateOf (givenUp d) = some g := by
    rw [lateOf, hgu]
    exact (if_pos ⟨rfl, hde⟩).trans (hdg.trans hg)
  rw [hlate] at hgiven
  have hserved := hgiven.served_all fun y hy => .inl (by rw [← Option.some.inj (hgs.symm.trans hy), hqueue])
  have hcursor := hserved.cursor (cu := if grp.params.policy = .rotate then some (grp.members.idxOf r.number) else grp.cursor)
    hgs fun i hi => by
      split at hi
      · next hp =>
        obtain rfl := Option.some.inj hi
        exact ⟨hp, List.idxOf_lt_length_of_mem hmem⟩
      · exact h.tools.cursor g grp i hgs hi
  have hnone : r.seat = none := recordSound_no_seat (h.tools.recordFits hr).sound (by rw [ha]; rfl)
  obtain ⟨_, hempty, hrest'⟩ := hcursor.vacated_at (q := q) (Function.update_self ..)
  have hmount := hcursor.mount (g := g) (mem_putRecord_of_ne hr hne.symm) (.inl ha) he (fun p _ => by rw [hnone]; nofun)
    (hempty.sole r) hg hrg (.inl (by rw [Function.update_self]; nofun)) hrest'
  rw [Function.update_idem] at hmount
  have hgrp : ({ grp with cursor := if grp.params.policy = .rotate then some (grp.members.idxOf r.number) else grp.cursor } : Group)
      = if grp.params.policy = .rotate then { grp with cursor := some (grp.members.idxOf r.number) } else grp := by
    split <;> rfl
  have halt : ((s.putRecord (givenUp d)).setGroup g (some { grp with
        cursor := if grp.params.policy = .rotate then some (grp.members.idxOf r.number) else grp.cursor })).putRecord
        { r with state := .active, seat := some q } = alternated s q g grp r d := by
    rw [hgrp, hgu, alternated]
    exact putRecord_comm (s.setGroup g _) (x := { d with state := .available, seat := none })
      (y := { r with state := .active, seat := some q }) hne
  rw [halt] at hmount
  exact hmount.same rfl

theorem mountCommand_coherent (h : Coherent s calm none) (seat : Byte) (tool : Half) :
    Coherent (mountCommand seat tool s).1 calm none := by
  unfold mountCommand
  split
  · next q n _ _ =>
    split
    · exact h
    · next hs =>
      split
      · next r hf =>
        split
        · next hr => exact mountChosen_coherent h (not_not.1 hs) (find_mem hf) hr.1 hr.2
        · split
          · next g hg =>
            split
            · next he => exact mountAlternative_coherent h (not_not.1 hs) hg (find_mem hf) he
            · exact h
          · exact h
      · exact h
  · exact h

end Mount

/-! ### SWAP -/

section Swap

variable {s : State} {q : SeatNo}

theorem swapSeat_coherent (h : Coherent s calm none) (hs : InService s q) (hcut : s.cutOpenAt q = false)
    (hsister : s.seatHasSister q = true) : Coherent (swapSeat s q) calm none := by
  obtain ⟨hleft, hrest⟩ := h.leave_quiet (q := q) fun w hw hc => by
    rw [(cutOpenAt_iff s q).2 ⟨w, hw, hc⟩] at hcut
    cases hcut
  have hseats := leaveService_seats s q
  have hgroups := leaveService_groups s q
  have htable := leaveService_table s q hcut
  rw [swapSeat]
  generalize leaveService s q = u at hleft hrest hseats hgroups htable
  cases hh : u.holder q with
  | none => exact hleft
  | some r =>
    rw [holder_congr_table htable] at hh
    have hactive : r.state = .active := by
      obtain ⟨_, ⟨hv, _⟩ | ⟨_, hr, _⟩ | ⟨_, hr, _⟩ | ⟨hv, _⟩⟩ := (h.sound_at rfl).holder_cases hh
      · obtain hs | hs := hs <;> cases hs.symm.trans hv
      · exact hr
      · exact hr
      · obtain hs | hs := hs <;> cases hs.symm.trans hv
    obtain ⟨hg, hrg⟩ := h.holder_group hh
    obtain ⟨g, hg⟩ := Option.ne_none_iff_exists'.1 hg
    obtain ⟨grp, hgs⟩ := h.group hg
    simp only [State.seatHasSister, hg] at hsister
    obtain ⟨n, hn, hne⟩ := (hasEligible_iff s g grp hgs).1 hsister
    have hqueue : grp.queue = [] := by
      by_contra hnil
      have hnone := h.served g grp hgs nofun hnil n hn
      rw [hne] at hnone
      cases hnone
    rw [← holder_congr_table htable] at hh
    have hgiven := hleft.giveUp hh (.inl hactive) hrest
    have hfind := find_givenUp hleft hh
    have hput : (u.putRecord (givenUp r)).groups[g] = some grp := by rw [putRecord_groups, hgroups, hgs]
    have hnotr : r.number ≠ n := by
      rintro rfl
      obtain ⟨y, hy, hya, _⟩ := (eligible_iff s g _).1 hne
      rw [holder_congr_table htable] at hh
      obtain rfl := Option.some.inj (hy.symm.trans (find_of_mem h.ordered (holder_mem hh)))
      rw [hactive] at hya
      cases hya
    have helig : (u.putRecord (givenUp r)).eligible g n = true := by
      rw [eligible_congr g (find_putRecord_ne u (r := givenUp r) hnotr), eligible_congr g (find_congr_table htable n)]
      exact hne
    have hserved : Coherent (u.putRecord (givenUp r)) (Function.update calm q .vacated) none := by
      by_cases hav : (givenUp r).state = .available ∧ ¬ HasEnd (givenUp r)
      · rw [lateOf, if_pos hav, show (givenUp r).group = some g from hrg.trans hg] at hgiven
        exact hgiven.served_all fun y hy => .inl (by rw [← Option.some.inj (hput.symm.trans hy), hqueue])
      · rwa [lateOf, if_neg hav] at hgiven
    have hselected := hserved.select (Function.update_self ..) (e := some r.number) fun a y hqa hy hch => by
      rw [putRecord_seats, hseats, hg] at hqa
      obtain rfl := Option.some.inj hqa
      obtain rfl := Option.some.inj (hput.symm.trans hy)
      obtain ⟨i, m, hm⟩ := choose_some _ g grp (some r.number) n hn helig fun hrn => hnotr (Option.some.inj hrn)
      rw [hch] at hm
      cases hm
    rw [Function.update_idem] at hselected
    change Coherent (select (returnRecord u r) q (some r.number)) calm none
    rw [returnRecord_of (.inl hactive)]
    have hunasked := inform_unasked (r := givenUp r) hfind (hrg.trans hg) hput hqueue
    exact (congrArg (fun t => Coherent (select t q (some r.number)) calm none) hunasked).mpr (hselected.same rfl)

theorem swapCommand_coherent (h : Coherent s calm none) (seat : Byte) : Coherent (swapCommand seat s).1 calm none := by
  unfold swapCommand
  split
  · next q _ =>
    split_ifs with hs hc hg
    · exact h
    · exact h
    · exact h
    · exact swapSeat_coherent h ((inService_iff s q).1 (by simpa using hs)) (Bool.not_eq_true _ ▸ hc) (by simpa using hg)
  · exact h

end Swap

end Sys2Proof.Proofs

/-! The commands of breakage supervision: RELEASE and CONDEMN (R142, R144), CHECK (R146, R147); DRESS (R42 to R44); and all
commands together. -/

namespace Sys2Proof.Proofs

open Sys2Proof.Machine Sys2Proof.Safety Sys2Proof.Laws

/-! ### RELEASE and CONDEMN -/

section Breakage

variable {s : State} {q : SeatNo} {r : ToolRecord}

theorem recordFits_released (h : RecordFits s r) (hs : r.state = .suspect) :
    RecordFits s { r with state := .active, cause := none } := by
  have hsound : RecordSound { r with state := .active, seat := r.seat, cause := none } :=
    recordSound_moved h.sound (by rw [h.sound.seat, hs]; simp) (iff_of_false nofun nofun) nofun
  exact recordFits_moved h hsound nofun

/-- What stands at a HALTED seat. -/
theorem Coherent.halted_at {late : Option GroupNo} (h : Coherent s calm late) (hs : s.seats[q].service = .halted) :
    ∃ w r, q = seatOfWheel w ∧ s.holder q = some r ∧ Sole s r q ∧ r.state = .suspect := by
  obtain ⟨hq, hheld⟩ := (h.sound_at rfl).halted hs
  obtain ⟨r, hh, hsole, hr⟩ := hheld.holder
  obtain ⟨w, hw⟩ | hd := seat_cases q
  · exact ⟨w, r, hw, hh, hsole, hr⟩
  · exact absurd hq (Nat.not_lt.2 hd)

/-- The wheel seat of a HALTED seat is quiet, and may run. -/
theorem wheelFits_halted {x : Wheel} {partOpen fault : Bool} (h : WheelFits x .halted partOpen fault) {v : Service}
    (hv : v = .running ∨ v = .due) : WheelFits x v partOpen fault := by
  have hnot : ¬ (Service.halted = .running ∨ Service.halted = .due) := by decide
  refine wheelFits_of_quiet h (.inl hv) ?_ ?_ ?_ ?_
  · exact by_contra fun hn => hnot (h.checks hn).1
  · exact by_contra fun hn => hnot (h.loaded (.inl hn)).1
  · exact by_contra fun hn => hnot (h.loaded (.inr hn)).1
  · exact by_contra fun hn => hnot (h.touching hn).1

theorem releaseSeat_coherent (h : Coherent s calm none) (hs : s.seats[q].service = .halted) :
    Coherent (releaseSeat s q) calm none := by
  obtain ⟨w, r, hw, hh, hsole, hr⟩ := h.halted_at hs
  have hmem := holder_mem hh
  have hseat := holder_seat hh
  have hfits := recordFits_released (h.tools.recordFits hmem) hr
  obtain ⟨hg, hrg⟩ := h.holder_group hh
  have hplace : ∀ p, p ≠ q → r.seat ≠ some p ∧ r.seat ≠ some p := fun p hp =>
    and_self_iff.2 fun hqp => hp (Option.some.inj (hqp.symm.trans hseat))
  have hactive : ∀ g, ({ r with state := .active, cause := none } : ToolRecord).eligibleIn g = true →
      none = some g ∨ r.eligibleIn g = true := fun g ha => absurd ha (not_eligible_of_state nofun)
  have hheld : ∀ {P : ToolRecord → Prop}, P { r with state := .active, cause := none } →
      HeldBy (s.putRecord { r with state := .active, cause := none }) q P := fun hP =>
    heldBy_put_self (x := { r with state := .active, cause := none }) hmem rfl hsole hseat hP
  rw [releaseSeat_of_suspect hw hh hr]
  dsimp only
  split
  · next hc =>
    have hend := h.put_at (x := { r with state := .active, cause := none }) (k := .ending) hmem ⟨rfl, rfl, rfl⟩ hfits hplace (fun _ => hrg) hg (by rw [hs]; nofun) (by rw [hs]; nofun)
      hactive ⟨.inr hs, hheld ⟨rfl, hc.1⟩⟩
    have hbegun := hend.beginChange (Function.update_self ..)
    rw [Function.update_idem] at hbegun
    exact hbegun.same rfl
  · next hc =>
    have hservice : (if HasEnd r then Service.due else .running) = .running ∨ (if HasEnd r then Service.due else .running) = .due := by
      split
      exacts [.inr rfl, .inl rfl]
    have hmoved := h.move (x := { r with state := .active, cause := none }) (v := if HasEnd r then .due else .running)
      (k := .sound) hmem ⟨rfl, rfl, rfl⟩ hfits hplace (fun _ => hrg) hg (.inr (by rw [hs]; nofun)) (by split <;> nofun) (by split <;> nofun) hactive (fun v hv => by
        subst hv
        exact wheelFits_halted (hs ▸ h.wheels v) hservice) (by
        by_cases he : HasEnd r
        · refine seatSound_of_due (by rw [setService_service, if_pos he]) ?_ (heldBy_congr (hheld ⟨rfl, he⟩) rfl)
          exact Bool.eq_true_of_not_eq_false fun hp => hc ⟨he, hp⟩
        · exact seatSound_of_running (by rw [setService_service, if_neg he]) (heldBy_congr (hheld ⟨rfl, he⟩) rfl))
    rw [stopFilters_setService]
    exact (hmoved.same rfl).wheel (wheelFits_stopped (hmoved.wheels w) (absurd rfl) (absurd rfl) (absurd rfl)) (.inl nofun)

theorem condemnSeat_coherent (h : Coherent s calm none) (hs : s.seats[q].service = .halted) :
    Coherent (condemnSeat s q) calm none := by
  obtain ⟨hleft, hrest⟩ := h.leave_halted rfl hs
  obtain ⟨_, r, _, hh, _, hr⟩ := hleft.halted_at (q := q) (by rw [leaveService_seats, hs])
  have hselected := (hleft.takeOff hrest hh hr (.inr ⟨rfl, rfl⟩)).select_any (Function.update_self ..)
  rw [Function.update_idem] at hselected
  exact hselected.same rfl

theorem releaseCommand_coherent (h : Coherent s calm none) (seat : Byte) : Coherent (releaseCommand seat s).1 calm none := by
  unfold releaseCommand
  split
  · split
    · next hs => exact releaseSeat_coherent h hs
    · exact h
  · exact h

theorem condemnCommand_coherent (h : Coherent s calm none) (seat : Byte) : Coherent (condemnCommand seat s).1 calm none := by
  unfold condemnCommand
  split
  · split
    · next hs => exact condemnSeat_coherent h hs
    · exact h
  · exact h

end Breakage

/-! ### CHECK and DRESS -/

section Checks

variable {s : State} {q : SeatNo} {w : WheelNo}

theorem startCheck_coherent (h : Coherent s calm none) (hs : InService s (seatOfWheel w)) (hp : s.wheels[w].phase = .idle)
    (hf : s.scan.fault = false) (lo hi steps : Nat) : Coherent (startCheck s w lo hi steps) calm none := by
  refine h.wheel ?_ (.inl nofun)
  obtain ⟨resting, cutTimer, phases, load, cutSeen, checks, loaded, touching⟩ := h.wheels w
  exact ⟨resting, cutTimer, phases, load, cutSeen, fun _ => ⟨hs, hp, hf, rfl⟩, loaded, absurd rfl⟩

theorem checkCommand_coherent (h : Coherent s calm none) (seat : Byte) (lo hi : Half) (duration : Byte) :
    Coherent (checkCommand seat lo hi duration s).1 calm none := by
  unfold checkCommand
  split
  · next q _ =>
    split
    · next w hw =>
      obtain rfl := wheelOf_some hw
      split_ifs with hb hs hc
      · exact h
      · exact h
      · exact h
      · simp only [Bool.or_eq_true, not_or, Bool.not_eq_true, Bool.not_eq_false', bne_eq_false_iff_eq] at hs
        obtain ⟨⟨hin, hp⟩, hf⟩ := hs
        exact startCheck_coherent h ((inService_iff s _).1 hin) hp hf _ _ _
    · exact h
  · exact h

theorem dressSeat_coherent (h : Coherent s calm none) (q : SeatNo) (stock : Nat) : Coherent (dressSeat s q stock) calm none := by
  unfold dressSeat
  split
  · next r hr =>
    obtain ⟨hh, hm⟩ := mountedAt_eq_some.1 hr
    exact h.tell_charge rfl hh hm (h.chargedTo_dressed hh hm stock _)
  · exact h

theorem dressCommand_coherent (h : Coherent s calm none) (seat : Byte) (infeed : Half) :
    Coherent (dressCommand seat infeed s).1 calm none := by
  have hwheel : ∀ w n, Coherent (dressWheel s w n).1 calm none := by
    intro w n
    unfold dressWheel
    dsimp only
    split
    · exact dressSeat_coherent (dressSeat_coherent h _ _) _ _
    · exact dressSeat_coherent h _ _
  unfold dressCommand
  split
  · split
    · split
      · exact hwheel _ _
      · exact h
    · exact h
  · exact h

end Checks

/-! ### The load scan and the link -/

section Quiet

variable {s : State}

theorem sameParts_setChannel (s : State) (c : ChannelNo) (x : Channel) : SameParts s (s.setChannel c x) :=
  ⟨rfl, rfl, rfl, rfl, fun _ => rfl, rfl, id⟩

theorem sameParts_setNotices (s : State) (n : Notices) : SameParts s (s.setNotices n) :=
  ⟨rfl, rfl, rfl, rfl, fun _ => rfl, rfl, id⟩

theorem watchdogFits_feed (l : Link) (h : WatchdogFits l) : WatchdogFits l.feed := by
  unfold Link.feed
  split
  · exact h
  · next hh =>
    intro hw
    refine ⟨Bool.not_eq_true _ ▸ hh, fun hp => hw ?_⟩
    exact if_pos hp

theorem watchdogFits_of_hold {l l' : Link} (h : WatchdogFits l) (hl : l.hold = true) (hw : l'.watchdog = l.watchdog) :
    WatchdogFits l' := by
  intro hne
  rw [hw] at hne
  have hh := (h hne).1
  rw [hl] at hh
  cases hh

theorem watchdogFits_feed_set (l : Link) (h : WatchdogFits l) (p : WatchdogPeriod) :
    WatchdogFits (Link.feed { l with period := p }) := by
  by_cases hl : l.hold = true
  · exact watchdogFits_feed _ (watchdogFits_of_hold (l' := { l with period := p }) h hl rfl)
  · intro hw
    simp only [Link.feed, hl, Bool.false_eq_true, if_false] at hw ⊢
    exact ⟨trivial, fun hp => hw (if_pos hp)⟩

theorem sameParts_setLink {l : Link} (h : WatchdogFits s.link → WatchdogFits l) : SameParts s (s.setLink l) :=
  ⟨rfl, rfl, rfl, rfl, fun _ => rfl, rfl, h⟩

theorem setLinkCommand_coherent (h : Coherent s calm none) (watchdog stretch : Byte) :
    Coherent (setLinkCommand watchdog stretch s).1 calm none :=
  coherent_congr (coherent_congr h (sameParts_setLink fun hl => watchdogFits_feed_set s.link hl (periodArg watchdog)))
    (sameParts_setNotices _ _)

theorem resumeCommand_coherent (h : Coherent s calm none) : Coherent (resumeCommand s).1 calm none := by
  unfold resumeCommand
  dsimp only
  split
  · next hl =>
    exact coherent_congr h (sameParts_setLink fun hw => watchdogFits_feed _ (watchdogFits_of_hold hw hl rfl))
  · exact h

theorem channelCommands_coherent (h : Coherent s calm none) (c n : Byte) :
    Coherent (readLoadCommand c s).1 calm none ∧ Coherent (setSenseCommand c n s).1 calm none := by
  unfold readLoadCommand setSenseCommand
  split
  · exact ⟨coherent_congr h (sameParts_setChannel _ _ _), coherent_congr h (sameParts_setChannel _ _ _)⟩
  · exact ⟨h, h⟩

/-- The commands that only report change nothing. -/
theorem reportingCommands_keep (s : State) (t : Half) (q g : Byte) : (queryCommand t s).1 = s ∧ (nextCommand t s).1 = s
    ∧ (groupCommand g s).1 = s ∧ (whereCommand q s).1 = s := by
  refine ⟨?_, ?_, ?_, ?_⟩
  · unfold queryCommand
    split
    · split <;> rfl
    · rfl
  · unfold nextCommand
    split <;> rfl
  · unfold groupCommand
    split
    · split <;> rfl
    · rfl
  · unfold whereCommand
    split <;> rfl

end Quiet

/-- Every command keeps the part consistent. -/
theorem command_coherent {i : Instr} {f : State → State × Reply} (hf : commandOf i = some f) {s : State}
    (h : Coherent s calm none) : Coherent (f s).1 calm none := by
  cases i with
  | enrol t k p m => cases hf; exact enrolCommand_coherent h t k p m
  | edit t a p m => cases hf; exact editCommand_coherent h t a p m
  | retire t => cases hf; exact retireCommand_coherent h t
  | query t => cases hf; rwa [(reportingCommands_keep s t 0 0).1]
  | next t => cases hf; rwa [(reportingCommands_keep s t 0 0).2.1]
  | lock t => cases hf; exact lockCommand_coherent h t
  | unlock t => cases hf; exact unlockCommand_coherent h t
  | define a => cases hf; exact defineCommand_coherent h a
  | link g t x => cases hf; exact linkCommand_coherent h g t x
  | unlink t => cases hf; exact unlinkCommand_coherent h t
  | group g => cases hf; rwa [(reportingCommands_keep s 0 0 g).2.2.1]
  | bind q g => cases hf; exact bindCommand_coherent h q g
  | unbind q => cases hf; exact unbindCommand_coherent h q
  | mount q t => cases hf; exact mountCommand_coherent h q t
  | swap q => cases hf; exact swapCommand_coherent h q
  | whereSeat q => cases hf; rwa [(reportingCommands_keep s 0 q 0).2.2.2]
  | release q => cases hf; exact releaseCommand_coherent h q
  | condemn q => cases hf; exact condemnCommand_coherent h q
  | check q lo hi d => cases hf; exact checkCommand_coherent h q lo hi d
  | dress q x => cases hf; exact dressCommand_coherent h q x
  | readLoad c => cases hf; exact (channelCommands_coherent h c 0).1
  | setSense c n => cases hf; exact (channelCommands_coherent h c n).2
  | takeNotices => cases hf; exact coherent_congr h (sameParts_setNotices s _)
  | setLink w x => cases hf; exact setLinkCommand_coherent h w x
  | resume => cases hf; exact resumeCommand_coherent h
  | ident => cases hf; exact h
  | _ => cases hf

end Sys2Proof.Proofs

/-! The events of the wheel seats and the timers (chapters 4, 6, 7, 9): a cut begins and closes, phases end, filter timers
fire, checks end, the watchdog expires. -/

namespace Sys2Proof.Proofs

open Sys2Proof.Machine Sys2Proof.Safety Sys2Proof.Laws

section Same

variable {s t : State} {c : SeatNo → Claim} {late : Option GroupNo}

theorem SameParts.trans {u : State} (h₁ : SameParts s t) (h₂ : SameParts t u) : SameParts s u :=
  ⟨h₂.table.trans h₁.table, h₂.groups.trans h₁.groups, h₂.seats.trans h₁.seats, h₂.wheels.trans h₁.wheels,
    fun st => (h₂.partOpen st).trans (h₁.partOpen st), h₂.fault.trans h₁.fault, fun hw => h₂.watchdog (h₁.watchdog hw)⟩

theorem sameParts_raiseIf (s : State) (p : Prop) [Decidable p] (q : SeatNo) (n : SeatNotice) : SameParts s (raiseIf s p q n) := by
  unfold raiseIf
  split; exacts [sameParts_raise s q n, .refl s]

theorem SameParts.putRecord (h : SameParts s t) (x : ToolRecord) : SameParts (s.putRecord x) (t.putRecord x) :=
  ⟨by rw [putRecord_table, putRecord_table, h.table], h.groups, h.seats, h.wheels, h.partOpen, h.fault, h.watchdog⟩

theorem SameParts.setWheel (h : SameParts s t) (w : WheelNo) (x : Wheel) : SameParts (s.setWheel w x) (t.setWheel w x) :=
  ⟨h.table, h.groups, h.seats, by rw [setWheel_wheels, setWheel_wheels, h.wheels], h.partOpen, h.fault, h.watchdog⟩

theorem sameParts_takeCutMark (s : State) (w : WheelNo) (e : Edge) : SameParts s (takeCutMark s w e) := by
  obtain ⟨l, hl⟩ := takeCutMark_eq s w e
  rw [hl]
  exact ⟨rfl, rfl, rfl, rfl, fun _ => rfl, rfl, id⟩

/-- The wheel seats and the part-open flags rewritten, where no seat is vacated. -/
theorem Coherent.rewheel (h : Coherent s c late) (hc : ∀ q, c q ≠ .vacated) (htable : t.table = s.table)
    (hgroups : t.groups = s.groups) (hseats : t.seats = s.seats) (hlink : WatchdogFits s.link → WatchdogFits t.link)
    (hpart : ∀ q : SeatNo, c q = .sound → s.seats[q].service = .due → t.stations[stationOf q].partOpen = true)
    (hw : ∀ w, WheelFitsAt t w t.wheels[w]) : Coherent t c late where
  tools := toolsFit_congr h.tools htable hgroups
  queues := queuesFit_congr h.queues hgroups hseats
  served := servedBut_congr h.served htable hgroups
  seats := by
    refine ⟨by rw [htable, hseats]; exact h.seats.seated, fun q => ?_⟩
    have hq := h.seats.meets q
    cases hk : c q with
    | sound =>
      rw [hk] at hq
      obtain ⟨vacant, changing, running, due, halted⟩ := hq
      refine ⟨?_, ?_, ?_, ?_, ?_⟩ <;> rw [hseats]
      · exact fun hv => emptyAt_congr (vacant hv) htable
      · exact fun hv => heldBy_congr (changing hv) htable
      · exact fun hv => heldBy_congr (running hv) htable
      · exact fun hv => ⟨hpart q hk hv, heldBy_congr (due hv).2 htable⟩
      · exact fun hv => ⟨(halted hv).1, heldBy_congr (halted hv).2 htable⟩
    | ending =>
      rw [hk] at hq
      refine ⟨?_, heldBy_congr hq.2 htable⟩
      rw [HoldsTool, InService, hseats]
      exact hq.1
    | vacated => exact absurd hk (hc q)
  wheels := hw
  watchdog := hlink h.watchdog

end Same

/-! ### A cut begins -/

section Cuts

variable {s : State} {w : WheelNo}

theorem wheelFits_partOpen {x : Wheel} {v : Service} {partOpen fault : Bool} (h : WheelFits x v partOpen fault) :
    WheelFits x v true fault where
  resting := h.resting
  cutTimer := h.cutTimer
  phases := h.phases
  load := h.load
  cutSeen _ := rfl
  checks := h.checks
  loaded := h.loaded
  touching := h.touching

theorem setStation_partOpen (s : State) (st : StationNo) (x : Station) (v : StationNo) :
    (s.setStation st x).stations[v].partOpen = if v = st then x.partOpen else s.stations[v].partOpen := by
  rw [setStation_stations]
  split
  · next hv => rw [hv, set_get_self]
  · next hv => rw [set_get_ne _ _ hv]

theorem Coherent.openPart (h : Coherent s calm none) (st : StationNo) :
    Coherent (s.setStation st { s.stations[st] with partOpen := true }) calm none := by
  refine h.rewheel (t := s.setStation st _) nofun rfl rfl rfl id (fun q _ hs => ?_) fun v => ?_
  · rw [setStation_partOpen]
    split
    · rfl
    · exact ((h.sound_at rfl).due hs).1
  · rw [WheelFitsAt, setStation_partOpen]
    split
    · exact wheelFits_partOpen (h.wheels v)
    · exact h.wheels v

/-- What stands at a seat in service. -/
theorem Coherent.in_service (h : Coherent s calm none) {q : SeatNo} (hs : HoldsTool s q) :
    ∃ r g grp, s.holder q = some r ∧ r.state.mounted = true ∧ s.seats[q].group = some g ∧ s.groups[g] = some grp := by
  obtain ⟨r, hh, hm⟩ : ∃ r, s.holder q = some r ∧ r.state.mounted = true := by
    have hsound := h.sound_at (q := q) rfl
    obtain (hs | hs) | hs := hs
    · obtain ⟨r, hh, _, hr, _⟩ := (hsound.running hs).holder
      exact ⟨r, hh, by rw [hr]; rfl⟩
    · obtain ⟨r, hh, _, hr, _⟩ := (hsound.due hs).2.holder
      exact ⟨r, hh, by rw [hr]; rfl⟩
    · obtain ⟨r, hh, _, hr⟩ := (hsound.halted hs).2.holder
      exact ⟨r, hh, by rw [hr]; rfl⟩
  obtain ⟨g, hg⟩ := Option.ne_none_iff_exists'.1 (h.holder_group hh).1
  obtain ⟨grp, hgs⟩ := h.group hg
  exact ⟨r, g, grp, hh, hm, hg, hgs⟩

/-- A cut begins at a wheel seat in service, with no cut open: no filter timer runs but the contact timer, which stops. -/
theorem Coherent.beginCut (h : Coherent s calm none) (hs : InService s (seatOfWheel w)) (hc : ¬ CutOpen s w) :
    Coherent (Machine.beginCut s w) calm none := by
  obtain ⟨_, g, grp, _, _, hg, hgs⟩ := h.in_service (.inl hs)
  rw [beginCut_eq hg hgs, ← raiseIf_setStation, ← raiseIf_setWheel]
  refine coherent_raiseIf ((h.openPart (stationOfWheel w)).wheel ?_ (.inl nofun)) _ _ _
  obtain ⟨_, _, _, load, _, _, loaded, _⟩ := h.wheels w
  have hcut : s.wheels[w].phase ≠ .cut := fun hp => hc (.inr hp)
  rw [WheelFitsAt, setStation_partOpen, if_pos rfl]
  refine ⟨fun hn => absurd (.inl hs) hn, iff_of_true nofun ?_, ?_, .inl (load.resolve_right hcut), fun _ => rfl, absurd rfl,
    fun hl => absurd (loaded hl).2.1 hcut, absurd rfl⟩
  · change (if grp.params.engageDelay = 0 then Phase.cut else .engage) = .engage
      ∨ (if grp.params.engageDelay = 0 then Phase.cut else .engage) = .cut
    split
    exacts [.inr rfl, .inl rfl]
  · change (if grp.params.engageDelay = 0 then none else some _) ≠ none
      ↔ (if grp.params.engageDelay = 0 then Phase.cut else .engage) = .engage
        ∨ (if grp.params.engageDelay = 0 then Phase.cut else .engage) = .settle
    split
    · exact iff_of_false (absurd rfl) (fun hp => hp.elim nofun nofun)
    · exact iff_of_true nofun (.inl rfl)

theorem takeCutRise_coherent (h : Coherent s calm none) (w : WheelNo) : Coherent (takeCutRise w s) calm none := by
  have hmark := sameParts_takeCutMark s w .rising
  have hm := coherent_congr h hmark
  by_cases hs : InService s (seatOfWheel w)
  · rw [takeCutRise_in_service hs]
    split
    · exact hm
    · next hc =>
      refine hm.beginCut ?_ ?_
      · rwa [InService, hmark.seats]
      · rwa [CutOpen, hmark.wheels]
  · rw [takeCutRise_out_of_service hs]
    exact coherent_congr hm (sameParts_raise _ _ _)

/-! ### A cut closes -/

/-- A wheel seat as the close of its cut leaves it. -/
def cutClosedWheel (x : Wheel) (time : Nat) : Wheel :=
  { x with
    phase := if time = 0 then .idle else .settle
    phaseTimer := if time = 0 then none else some { count := 0, time := time }
    loss := none, overload := none, accumulator := 0, cutTimer := none }

theorem wheelFits_cutClosed {x : Wheel} {v : Service} {partOpen fault : Bool} (h : WheelFits x v partOpen fault)
    (hc : x.phase = .engage ∨ x.phase = .cut) (time : Nat) : WheelFits (cutClosedWheel x time) v partOpen fault := by
  have hnot : x.phase ≠ .idle := by
    rintro hp
    rw [hp] at hc
    obtain hc | hc := hc <;> cases hc
  have hphase : (cutClosedWheel x time).phase = if time = 0 then .idle else .settle := rfl
  have htimer : (cutClosedWheel x time).phaseTimer = if time = 0 then none else some { count := 0, time := time } := rfl
  refine ⟨fun hn => absurd (h.resting hn).1 hnot, iff_of_false (absurd rfl) ?_, ?_, .inl rfl, h.cutSeen,
    fun hk => absurd (h.checks hk).2.1 hnot, fun hl => hl.elim (absurd rfl) (absurd rfl), fun hk => absurd (h.touching hk).2.1 hnot⟩
  · rw [hphase]
    split <;> exact fun hp => hp.elim nofun nofun
  · rw [hphase, htimer]
    split
    · exact iff_of_false (absurd rfl) (fun hp => hp.elim nofun nofun)
    · exact iff_of_true nofun (.inr rfl)

theorem sameParts_cutClosed {m : State} (hm : SameParts s m) (r r' : ToolRecord) (time : Nat) :
    SameParts ((s.putRecord r').setWheel w (cutClosedWheel s.wheels[w] time)) (cutClosed s m w r r' time) := by
  have hraised := (hm.trans (sameParts_raiseIf m (NewEnd r r' ∧ r.state = .active) (seatOfWheel w) .spent)).trans
    (sameParts_raiseIf _ (r.warned = false ∧ r'.warned = true) (seatOfWheel w) .warn)
  obtain ⟨table, groups, seats, wheels, partOpen, fault, watchdog⟩ :=
    (hraised.putRecord r').setWheel w (cutClosedWheel s.wheels[w] time)
  exact ⟨table, groups, seats, wheels, partOpen, fault, watchdog⟩

theorem afterWrite_ne_vacated (s : State) (q : SeatNo) (x : ToolRecord) : afterWrite s q x ≠ .vacated := by
  unfold afterWrite
  split <;> nofun

theorem takeCutFall_coherent (h : Coherent s calm none) (w : WheelNo) : Coherent (takeCutFall w s) calm none := by
  have hmark := sameParts_takeCutMark s w .falling
  by_cases hc : CutOpen s w
  · have hholds : HoldsTool s (seatOfWheel w) := by
      by_contra hn
      obtain hp | hp := hc <;> cases hp.symm.trans ((h.wheels w).resting hn).1
    obtain ⟨r, g, grp, hh, hm, hg, hgs⟩ := h.in_service hholds
    have hx := h.chargedTo_worn hh hm hg hgs s.wheels[w].accumulator (s.marginOf r)
    rw [takeCutFall_eq rfl hc hh ((mounted_iff _).1 hm) hg hgs rfl]
    generalize Safety.chargedTo (s.marginOf r) (worn s.wheels[w].accumulator grp.params.nominalLoad r) = x at hx
    generalize (takeCutMark s w .falling).settleTime w = time
    have hput := h.put_charged rfl hh hm hx
    have hwheel := hput.wheel (w := w) (wheelFits_cutClosed (hput.wheels w) hc time)
      (.inl (by rw [Function.update_self]; exact afterWrite_ne_vacated _ _ _))
    exact h.tell rfl hh (coherent_congr hwheel (sameParts_cutClosed hmark r x time)) (cutClosed_seats hmark.seats time)
  · have hclosed : ¬ (takeCutMark s w .falling).wheels[w].phase.cutOpen = true := by
      rw [hmark.wheels, cutOpen_iff]
      exact hc
    rw [takeCutFall, if_neg hclosed]
    exact coherent_congr h hmark

/-! ### The phases -/

theorem wheelFits_engaged {x : Wheel} {v : Service} {partOpen fault : Bool} (h : WheelFits x v partOpen fault)
    (hp : x.phase = .engage) : WheelFits { x with phase := .cut, phaseTimer := none } v partOpen fault := by
  obtain ⟨resting, cutTimer, phases, load, cutSeen, checks, loaded, touching⟩ := h
  rw [hp] at resting cutTimer checks loaded touching
  exact ⟨fun hn => absurd (resting hn).1 nofun, iff_of_true (cutTimer.2 (.inl rfl)) (.inr rfl),
    iff_of_false (absurd rfl) (fun hp => hp.elim nofun nofun), .inr rfl, cutSeen, fun hk => absurd (checks hk).2.1 nofun,
    fun hl => absurd (loaded hl).2.1 nofun, fun hk => absurd (touching hk).2.1 nofun⟩

theorem wheelFits_blanked {x : Wheel} {v : Service} {partOpen fault : Bool} (h : WheelFits x v partOpen fault)
    (hp : x.phase = .settle) : WheelFits { x with phase := .idle, phaseTimer := none } v partOpen fault := by
  obtain ⟨resting, cutTimer, phases, load, cutSeen, checks, loaded, touching⟩ := h
  rw [hp] at resting cutTimer load checks loaded touching
  exact ⟨fun hn => absurd (resting hn).1 nofun, iff_of_false (fun ht => (cutTimer.1 ht).elim nofun nofun) (fun hp => hp.elim nofun nofun),
    iff_of_false (absurd rfl) (fun hp => hp.elim nofun nofun), .inl (load.resolve_right nofun), cutSeen,
    fun hk => absurd (checks hk).2.1 nofun, fun hl => absurd (loaded hl).2.1 nofun, fun hk => absurd (touching hk).2.1 nofun⟩

theorem takeEngageEnd_coherent (h : Coherent s calm none) (w : WheelNo) : Coherent (takeEngageEnd w s) calm none := by
  unfold takeEngageEnd
  split
  · next hp => exact h.wheel (wheelFits_engaged (h.wheels w) hp.1) (.inl nofun)
  · exact h

theorem takeBlankingEnd_coherent (h : Coherent s calm none) (w : WheelNo) : Coherent (takeBlankingEnd w s) calm none := by
  unfold takeBlankingEnd
  split
  · next hp => exact h.wheel (wheelFits_blanked (h.wheels w) hp.1) (.inl nofun)
  · exact h

end Cuts

/-! ### Timers -/

section Timers

variable {s : State} {w : WheelNo}

/-- The counts of the timers of a wheel seat do not matter, and those of its load only in a cut. -/
theorem wheelFits_recounted {x y : Wheel} {v : Service} {partOpen fault : Bool} (h : WheelFits x v partOpen fault)
    (phase : y.phase = x.phase) (cutSeen : y.cutSeen = x.cutSeen) (cutTimer : y.cutTimer = none ↔ x.cutTimer = none)
    (phaseTimer : y.phaseTimer = none ↔ x.phaseTimer = none) (load : x.phase ≠ .cut → y.accumulator = x.accumulator)
    (check : y.check = none ↔ x.check = none) (loss : y.loss = none ↔ x.loss = none)
    (overload : y.overload = none ↔ x.overload = none) (contact : y.contact = none ↔ x.contact = none) :
    WheelFits y v partOpen fault where
  resting := by rw [phase, cutSeen]; exact h.resting
  cutTimer := by rw [phase, ne_eq, cutTimer]; exact h.cutTimer
  phases := by rw [phase, ne_eq, phaseTimer]; exact h.phases
  load := by
    rw [phase]
    by_cases hp : x.phase = .cut
    · exact .inr hp
    · exact .inl ((load hp).trans (h.load.resolve_right hp))
  cutSeen := by rw [cutSeen]; exact h.cutSeen
  checks := by rw [phase, ne_eq, check, contact]; exact h.checks
  loaded := by rw [phase, ne_eq, loss, ne_eq, overload]; exact h.loaded
  touching := by rw [phase, ne_eq, contact]; exact h.touching

theorem takeFilter_coherent (h : Coherent s calm none) (w : WheelNo) (k : FilterKind) : Coherent (takeFilter w k s) calm none := by
  have hstopped : WheelFitsAt s w (s.wheels[w].stopFilter k) := by
    cases k with
    | loss => exact wheelFits_stopped (h.wheels w) (absurd rfl) id id
    | overload => exact wheelFits_stopped (h.wheels w) id (absurd rfl) id
    | contact => exact wheelFits_stopped (h.wheels w) id id (absurd rfl)
  unfold takeFilter
  split
  · exact (h.wheel hstopped (.inl nofun)).suspicion rfl _
  · exact h

theorem takeOvertime_coherent (h : Coherent s calm none) (w : WheelNo) : Coherent (takeOvertime w s) calm none := by
  unfold takeOvertime
  split
  · next t ht =>
    split
    · have hfits : WheelFitsAt s w { s.wheels[w] with cutTimer := some { t with fires := false } } :=
        wheelFits_recounted (h.wheels w) rfl rfl (iff_of_false nofun (by rw [ht]; nofun)) .rfl (fun _ => rfl) .rfl .rfl .rfl .rfl
      exact (h.wheel hfits (.inl nofun)).suspicion rfl _
    · exact h
  · exact h

theorem takeCheckEnd_coherent (h : Coherent s calm none) (w : WheelNo) : Coherent (takeCheckEnd w s) calm none := by
  unfold takeCheckEnd
  split
  · split
    · exact h.endCheck rfl _
    · exact h
  · exact h

theorem takeStretchEnd_coherent (h : Coherent s calm none) (st : StationNo) : Coherent (takeStretchEnd st s) calm none := by
  unfold takeStretchEnd
  split
  · refine coherent_congr h ⟨rfl, rfl, rfl, rfl, fun v => ?_, rfl, id⟩
    rw [setStation_partOpen]
    split
    · next hv => rw [hv]
    · rfl
  · exact h

theorem takeExpiry_coherent (h : Coherent s calm none) : Coherent (takeExpiry s) calm none := by
  unfold takeExpiry
  split
  · have hlink : WatchdogFits { s.link with hold := true, watchdog := none } := fun hw => absurd rfl hw
    exact coherent_congr (coherent_congr h (sameParts_setLink fun _ => hlink)) (sameParts_setNotices _ _)
  · exact h

end Timers

end Sys2Proof.Proofs

/-! The part end (R46, R94): the part charges, the seats that are to change, the flags cleared, and the changes. -/

namespace Sys2Proof.Proofs

open Sys2Proof.Machine Sys2Proof.Safety Sys2Proof.Laws

section PartEnd

variable {s : State} {c : SeatNo → Claim} {late : Option GroupNo} {q : SeatNo} {st : StationNo}

/-! ### The part charges -/

/-- The claims after part charges: the change of a RUNNING seat whose tool ended is to begin. -/
def chargedClaims (s : State) (c : SeatNo → Claim) (ended : List SeatNo) (q : SeatNo) : Claim :=
  if s.seats[q].service = .running ∧ q ∈ ended then .ending else c q

theorem chargedClaims_of_mem {ended : List SeatNo} (hs : s.seats[q].service = .running) (hq : q ∈ ended) :
    chargedClaims s c ended q = .ending := if_pos ⟨hs, hq⟩

theorem chargedClaims_of_not {ended : List SeatNo} (h : ¬ (s.seats[q].service = .running ∧ q ∈ ended)) :
    chargedClaims s c ended q = c q := if_neg h

theorem partCharge_seats (s : State) (q : SeatNo) : (partCharge s q).1.seats = s.seats := by
  unfold partCharge
  split
  · split
    · exact (measureWrite_fields s .charge _ _).2.1
    · rfl
  · rfl

/-- The part charge of a seat, and whether its change is to begin. -/
theorem Coherent.partCharge (h : Coherent s c late) (hc : c q = .sound) :
    Coherent (Machine.partCharge s q).1 (Function.update c q
      (if s.seats[q].service = .running ∧ (Machine.partCharge s q).2 = true then .ending else .sound)) late := by
  have hquiet : Coherent s (Function.update c q .sound) late := by rwa [← hc, Function.update_eq_self]
  unfold Machine.partCharge
  split
  · next r hr =>
    obtain ⟨hh, hm⟩ := mountedAt_eq_some.1 hr
    split
    · have hx := h.chargedTo_counted hh hm (s.marginOf r)
      have hput := coherent_congr (h.put_charged hc hh hm hx) (sameParts_measureWrite s .charge r (chargePart r))
      have htold : (measureWrite s .charge r (chargePart r)).2
          = decide (NewEnd r (recompute .charge (s.marginOf r) (chargePart r)) ∧ r.state = .active) := by
        rw [measureWrite_mounted s _ _ _ q (holder_seat hh) ((mounted_iff _).1 hm)]
      have hclaim : afterWrite s q (recompute .charge (s.marginOf r) (chargePart r))
          = if s.seats[q].service = .running ∧ (measureWrite s .charge r (chargePart r)).2 = true then .ending else .sound := by
        rw [afterWrite, htold]
        refine if_congr (and_congr_right fun hs => Iff.trans ?_ decide_eq_true_iff.symm) rfl rfl
        obtain ⟨_, hr, hn⟩ := ((h.sound_at hc).running hs).of_holder hh
        exact ⟨fun he => ⟨newEnd_of_no_end hn he, hr⟩, fun hnew => newEnd_hasEnd hnew.1⟩
      rwa [← hclaim]
    · rwa [if_neg (by simp)]
  · rwa [if_neg (by simp)]

theorem partCharges_mem {qs : List SeatNo} (h : q ∈ (partCharges s qs).2) : q ∈ qs := by
  induction qs generalizing s with
  | nil => exact h
  | cons p qs ih =>
    rw [partCharges] at h
    dsimp only at h
    split at h
    · exact (List.mem_cons.1 h).elim (fun hp => hp ▸ List.mem_cons_self) fun hq => List.mem_cons_of_mem _ (ih hq)
    · exact List.mem_cons_of_mem _ (ih h)

theorem Coherent.partCharges {qs : List SeatNo} (h : Coherent s c late) (hn : qs.Nodup) (hc : ∀ q ∈ qs, c q = .sound) :
    Coherent (Machine.partCharges s qs).1 (chargedClaims s c (Machine.partCharges s qs).2) late := by
  induction qs generalizing s c with
  | nil =>
    have hsame : chargedClaims s c [] = c := funext fun q => chargedClaims_of_not fun hq => List.not_mem_nil hq.2
    rwa [Machine.partCharges, hsame]
  | cons q qs ih =>
    obtain ⟨hq, hn⟩ := List.nodup_cons.1 hn
    have hfirst := h.partCharge (hc q List.mem_cons_self)
    have hseats := partCharge_seats s q
    have hrest := ih hfirst hn fun p hp => by
      rw [Function.update_of_ne fun hpq : p = q => hq (hpq ▸ hp)]
      exact hc p (List.mem_cons_of_mem q hp)
    rw [Machine.partCharges]
    dsimp only
    generalize Machine.partCharge s q = first at hfirst hseats hrest
    have hmem : ∀ {p}, p ∈ (Machine.partCharges first.1 qs).2 → p ∈ qs := partCharges_mem
    generalize Machine.partCharges first.1 qs = rest at hrest hmem
    have hclaims : chargedClaims first.1 (Function.update c q
          (if s.seats[q].service = .running ∧ first.2 = true then .ending else .sound)) rest.2
        = chargedClaims s c (if first.2 then q :: rest.2 else rest.2) := by
      funext p
      unfold chargedClaims
      rw [hseats]
      by_cases hpq : p = q
      · subst hpq
        rw [if_neg fun hp => hq (hmem hp.2), Function.update_self, hc p List.mem_cons_self]
        cases first.2
        · rw [if_neg (by simp), if_neg fun hp => hq (hmem hp.2)]
        · simp
      · rw [Function.update_of_ne hpq]
        cases first.2 <;> simp [hpq]
    rwa [← hclaims]

/-! ### The seats that change -/

/-- The DUE seats of a sound part whose changes are to begin. -/
theorem Coherent.claimDue (h : Coherent s c late) {c' : SeatNo → Claim}
    (hc : ∀ q, c' q = c q ∨ c q = .sound ∧ c' q = .ending ∧ s.seats[q].service = .due) : Coherent s c' late := by
  have hvacated : ∀ q, c' q ≠ .vacated → c q ≠ .vacated := by
    intro q hq hcq
    obtain he | ⟨hs, _⟩ := hc q
    · exact hq (he.trans hcq)
    · cases hs.symm.trans hcq
  refine ⟨h.tools, ⟨fun g grp hg => ?_, fun q hq => h.queues.bound q (hvacated q hq), fun q g hg => ?_⟩, h.served,
    ⟨h.seats.seated, fun q => ?_⟩, h.wheels, h.watchdog⟩
  · obtain ⟨hnodup, hall⟩ := h.queues.queue g grp hg
    refine ⟨hnodup, fun q hq => ?_⟩
    obtain ⟨hw, hqg, hs⟩ := hall q hq
    obtain he | ⟨_, _, hdue⟩ := hc q
    · exact ⟨hw, hqg, he.trans hs⟩
    · cases hw.symm.trans hdue
  · obtain ⟨grp, hgs, hk, hw⟩ := h.queues.kinds q g hg
    exact ⟨grp, hgs, hk, fun hq => hw (hvacated q hq)⟩
  · obtain he | ⟨hs, he, hdue⟩ := hc q
    · rw [he]
      exact h.seats.meets q
    · rw [he]
      exact ⟨.inl (.inr hdue), ((h.sound_at hs).due hdue).2⟩

theorem mem_changingSeats_iff (hseats : (partCharges s (seatsOf st)).1.seats = s.seats) : q ∈ changingSeats s st ↔ stationOf q = st
    ∧ (s.seats[q].service = .due ∨ s.seats[q].service = .running ∧ q ∈ (partCharges s (seatsOf st)).2) := by
  rw [changingSeats, (changeOrder_perm _ _).mem_iff, changesAtPartEnd, clearPart_seats, hseats, List.mem_filter, mem_seatsOf,
    stationOf_eq_iff]
  simp only [Bool.or_eq_true, Bool.and_eq_true, beq_iff_eq, List.contains_iff_mem]

/-- The claims before the changes of a part end. -/
def changingClaims (s : State) (st : StationNo) (q : SeatNo) : Claim :=
  if q ∈ changingSeats s st then .ending else .sound

/-- The part counted: the changes of the DUE seats and of the seats whose tools ended are to begin. -/
theorem Coherent.counted (h : Coherent s calm none) :
    Coherent (Machine.partCharges s (seatsOf st)).1 (changingClaims s st) none := by
  have hseats := partCharges_seats (st := st) h.ordered
  have hcharged := h.partCharges (seatsOf_nodup st) fun _ _ => rfl
  refine hcharged.claimDue fun q => ?_
  rw [hseats]
  have hstation : q ∈ (Machine.partCharges s (seatsOf st)).2 → stationOf q = st := fun hq =>
    (stationOf_eq_iff q st).2 ((mem_seatsOf q st).1 (partCharges_mem hq))
  unfold changingClaims
  by_cases hq : q ∈ changingSeats s st
  · rw [if_pos hq]
    obtain ⟨_, hdue | hrun⟩ := (mem_changingSeats_iff hseats).1 hq
    · refine .inr ⟨?_, rfl, hdue⟩
      rw [chargedClaims_of_not]
      · rfl
      · exact fun hr => by cases hdue.symm.trans hr.1
    · rw [chargedClaims_of_mem hrun.1 hrun.2]
      exact .inl rfl
  · rw [if_neg hq, chargedClaims_of_not]
    · exact .inl rfl
    · exact fun hr => hq ((mem_changingSeats_iff hseats).2 ⟨hstation hr.2, .inr hr⟩)

/-! ### The flags cleared -/

theorem wheelFits_unseen {x : Wheel} {v : Service} {partOpen partOpen' fault : Bool} (h : WheelFits x v partOpen fault) :
    WheelFits { x with cutSeen := false } v partOpen' fault where
  resting hn := ⟨(h.resting hn).1, rfl⟩
  cutTimer := h.cutTimer
  phases := h.phases
  load := h.load
  cutSeen hs := Bool.noConfusion hs
  checks := h.checks
  loaded := h.loaded
  touching := h.touching

/-- The flags of a station are cleared where its DUE seats are to change. -/
theorem Coherent.cleared (h : Coherent s c late) (hc : ∀ q, c q ≠ .vacated)
    (hdue : ∀ q : SeatNo, stationOf q = st → c q = .sound → s.seats[q].service ≠ .due) : Coherent (Proofs.cleared s st) c late := by
  have hpart : ∀ v : StationNo, v ≠ st → (Proofs.cleared s st).stations[v].partOpen = s.stations[v].partOpen := fun v hv => by
    rw [cleared_stations, set_get_ne _ _ hv]
  have hlink : (Proofs.cleared s st).link = s.link := rfl
  have hscan : (Proofs.cleared s st).scan = s.scan := rfl
  refine h.rewheel hc (cleared_table s st) (cleared_groups s st) (cleared_seats s st) (fun hw => hlink ▸ hw)
    (fun q hq hs => ?_) fun w => ?_
  · rw [hpart _ fun hst => hdue q hst hq hs]
    exact ((h.sound_at hq).due hs).1
  · rw [WheelFitsAt, cleared_seats, hscan, cleared_wheels, clearPart_wheels]
    split
    · exact wheelFits_unseen (h.wheels w)
    · next hw =>
      rw [hpart _ hw]
      exact h.wheels w

/-! ### The changes -/

theorem Coherent.beginChanges {qs : List SeatNo} (h : Coherent s c late) (hn : qs.Nodup) (hc : ∀ q ∈ qs, c q = .ending) :
    Coherent (qs.foldl Machine.beginChange s) (fun q => if q ∈ qs then .sound else c q) late := by
  induction qs generalizing s c with
  | nil =>
    have hsame : (fun q : SeatNo => if q ∈ ([] : List SeatNo) then Claim.sound else c q) = c :=
      funext fun q => if_neg List.not_mem_nil
    rwa [hsame]
  | cons q qs ih =>
    obtain ⟨hq, hn⟩ := List.nodup_cons.1 hn
    have hfirst := ih (h.beginChange (hc q List.mem_cons_self)) hn fun p hp => by
      rw [Function.update_of_ne fun hpq : p = q => hq (hpq ▸ hp)]
      exact hc p (List.mem_cons_of_mem q hp)
    have hclaims : (fun p => if p ∈ qs then Claim.sound else Function.update c q .sound p)
        = fun p => if p ∈ q :: qs then .sound else c p := by
      funext p
      by_cases hpq : p = q
      · subst hpq
        rw [if_neg hq, Function.update_self, if_pos List.mem_cons_self]
      · rw [Function.update_of_ne hpq]
        exact if_congr (by rw [List.mem_cons, or_iff_right hpq]) rfl rfl
    rwa [hclaims] at hfirst

theorem endPart_coherent (h : Coherent s calm none) (st : StationNo) : Coherent (endPart s st) calm none := by
  have hseats := partCharges_seats (st := st) h.ordered
  have hcleared := h.counted (st := st) |>.cleared (st := st)
    (fun q => by unfold changingClaims; split <;> nofun) fun q hst hq hdue => by
      rw [hseats] at hdue
      rw [changingClaims, if_pos ((mem_changingSeats_iff hseats).2 ⟨hst, .inl hdue⟩)] at hq
      cases hq
  have hbegun := hcleared.beginChanges (qs := changingSeats s st) changingSeats_nodup fun q hq => if_pos hq
  have hcalm : (fun q => if q ∈ changingSeats s st then Claim.sound else changingClaims s st q) = calm := by
    funext q
    split
    · rfl
    · next hq => exact if_neg hq
  rw [hcalm] at hbegun
  rwa [endPart_eq, beforeChanges]

theorem takePartEnd_coherent (h : Coherent s calm none) (st : StationNo) : Coherent (takePartEnd st s) calm none := by
  have hmark : Coherent (takePendMark s st) calm none := coherent_congr h ⟨rfl, rfl, rfl, rfl, fun _ => rfl, rfl, id⟩
  rw [takePartEnd_eq]
  split
  · exact endPart_coherent hmark st
  · exact hmark

end PartEnd

end Sys2Proof.Proofs

/-! The load scan (R118 to R134, R148), frames, the tick and resets; and O52: every step keeps the part consistent. -/

namespace Sys2Proof.Proofs

open Sys2Proof.Machine Sys2Proof.Safety Sys2Proof.Laws

/-! ### A published average -/

section Scan

variable {s : State} {w : WheelNo}

theorem supervise_coherent (h : Coherent s calm none) (w : WheelNo) (average : Nat) : Coherent (supervise s w average) calm none := by
  cases hp : s.wheelParams w with
  | none =>
    have hstop : supervise s w average = stopFilters s w := by simp only [supervise, hp]
    rw [hstop]
    exact h.wheel (wheelFits_stopped (h.wheels w) (absurd rfl) (absurd rfl) (absurd rfl)) (.inl nofun)
  | some p =>
    rw [supervise_eq average hp]
    obtain ⟨resting, cutTimer, phases, load, cutSeen, checks, _, _⟩ := h.wheels w
    have hmet : ∀ {q : Prop} [Decidable q] {x : WatchTimer}, (if q then some x else none) ≠ none → q := fun {q} _ _ hne =>
      by_contra fun hq => hne (if_neg hq)
    refine h.wheel ⟨resting, cutTimer, phases, load, cutSeen, fun hk => ?_, fun hl => ?_, fun hk => ?_⟩ (.inl nofun)
    · obtain ⟨hs, hphase, hf, _⟩ := checks hk
      exact ⟨hs, hphase, hf, if_neg fun hm => hk hm.2.2.2.2.1⟩
    · obtain hl | hl := hl
      · obtain ⟨hs, hphase, _, hf, _⟩ := hmet hl
        exact ⟨hs, hphase, hf⟩
      · obtain ⟨hs, hphase, _, hf, _⟩ := hmet hl
        exact ⟨hs, hphase, hf⟩
    · obtain ⟨hs, hphase, _, hf, _⟩ := hmet hk
      exact ⟨hs, hphase, hf⟩

theorem probeTest_coherent (h : Coherent s calm none) (w : WheelNo) (average : Nat) : Coherent (probeTest s w average) calm none := by
  unfold probeTest
  split
  · next c hc =>
    split_ifs
    · exact h.endCheck rfl _
    · exact h.endCheck rfl _
    · have hfits : WheelFitsAt s w { s.wheels[w] with check := some { c with tested := true } } :=
        wheelFits_recounted (h.wheels w) rfl rfl .rfl .rfl (fun _ => rfl) (iff_of_false nofun (by rw [hc]; nofun)) .rfl .rfl .rfl
      exact h.wheel hfits (.inl nofun)
  · exact h

theorem published_coherent (h : Coherent s calm none) (c : ChannelNo) : Coherent (published s c) calm none := by
  unfold published
  split
  · exact probeTest_coherent (supervise_coherent h _ _) _ _
  · exact h

/-! ### The reference monitor -/

theorem sameParts_setScan (s : State) {x : Scan} (hx : x.fault = s.scan.fault) : SameParts s (s.setScan x) :=
  ⟨rfl, rfl, rfl, rfl, fun _ => rfl, hx, id⟩

/-- While a sense fault stands no check and no filter timer runs, so that it may end. -/
theorem wheelFits_recovered {x : Wheel} {v : Service} {partOpen : Bool} (h : WheelFits x v partOpen true) :
    WheelFits x v partOpen false where
  resting := h.resting
  cutTimer := h.cutTimer
  phases := h.phases
  load := h.load
  cutSeen := h.cutSeen
  checks hk := absurd (h.checks hk).2.2.1 nofun
  loaded hl := absurd (h.loaded hl).2.2 nofun
  touching hk := absurd (h.touching hk).2.2 nofun

theorem leaveFault_coherent (h : Coherent s calm none) (hf : s.scan.fault = true) : Coherent (leaveFault s) calm none := by
  have hscan : Coherent (s.setScan { s.scan with run := 0, fault := false }) calm none := by
    refine h.rewheel (t := s.setScan _) nofun rfl rfl rfl id (fun q _ hs => ((h.sound_at rfl).due hs).1) fun w => ?_
    have hw := h.wheels w
    rw [WheelFitsAt, hf] at hw
    exact wheelFits_recovered hw
  exact coherent_congr hscan (sameParts_setNotices _ _)

theorem enterFault_coherent (h : Coherent s calm none) : Coherent (enterFault s) calm none := by
  obtain ⟨htable, hgroups, hseats⟩ := enterFault_keepsTables s
  have hrest := enterFault_keepsRest s
  have hstations : (enterFault s).stations = s.stations := hrest.stations
  have hlink : (enterFault s).link = s.link := hrest.link
  have hwheel : ∀ w : WheelNo, (enterFault s).wheels[w] = faulted s.wheels[w] := fun w => by
    have hview := wheelAndFlags_enterFault s w
    simp only [wheelAndFlags, faultedWithFlags, Prod.mk.injEq] at hview
    exact hview.1
  generalize enterFault s = t at htable hgroups hseats hstations hlink hwheel
  refine h.rewheel nofun htable hgroups hseats (by rw [hlink]; exact id) (fun q _ hs => ?_) fun w => ?_
  · rw [hstations]
    exact ((h.sound_at rfl).due hs).1
  · rw [WheelFitsAt, hwheel, hseats, hstations]
    exact wheelFits_faulted (h.wheels w)

theorem monitor_coherent (h : Coherent s calm none) (code : Nat) : Coherent (monitor s code) calm none := by
  unfold monitor
  split_ifs with hband hrun hf
  · exact leaveFault_coherent h hf
  · exact enterFault_coherent h
  · exact coherent_congr h (sameParts_setScan s rfl)
  · exact coherent_congr h (sameParts_setScan s rfl)

theorem convert_coherent (h : Coherent s calm none) (code : Nat) : Coherent (convert code s) calm none := by
  have hscanned : Coherent (scanned s code) calm none := coherent_congr h (sameParts_setScan s rfl)
  by_cases h8 : s.scan.pointer = 8
  · rw [convert_ref s code h8]
    exact monitor_coherent hscanned code
  · rw [convert_load s code h8]
    split
    · exact published_coherent hscanned _
    · exact hscanned

end Scan

/-! ### Frames -/

theorem watchdogFits_keepsLink {l l' : Link} (h : WatchdogFits l) (hk : KeepsLink l l') : WatchdogFits l' := by
  obtain ⟨hold, period, hw | ⟨hh, hw⟩⟩ := hk
  · rwa [WatchdogFits, hold, period, hw]
  · intro hne
    refine ⟨hold.trans hh, fun hp => hne ?_⟩
    rw [hw, if_pos (period.symm.trans hp)]

theorem frame_coherent {i : Instr} {f : State → State} (hf : eventOf i = some f) (hi : IsFrame i) {s : State}
    (h : Coherent s calm none) : Coherent (f s) calm none := by
  obtain ⟨l, x, hl, heq⟩ := frame_linkAndSdo hf hi s
  rw [heq]
  exact coherent_congr h ⟨rfl, rfl, rfl, rfl, fun _ => rfl, rfl, fun hw => watchdogFits_keepsLink hw hl⟩

/-- Every event keeps the part consistent. -/
theorem event_coherent {i : Instr} {f : State → State} (hf : eventOf i = some f) {s : State} (h : Coherent s calm none) :
    Coherent (f s) calm none := by
  cases i with
  | statusFrame m a l => exact frame_coherent hf (.inl ⟨m, a, l, .inl rfl⟩) h
  | commandFrame m a l => exact frame_coherent hf (.inl ⟨m, a, l, .inr (.inl rfl)⟩) h
  | fetchFrame m a l => exact frame_coherent hf (.inl ⟨m, a, l, .inr (.inr rfl)⟩) h
  | frameOfNoKind m b => exact frame_coherent hf (.inr ⟨m, b, rfl⟩) h
  | cutRisingEdge w => cases hf; exact takeCutRise_coherent h w
  | cutFallingEdge w => cases hf; exact takeCutFall_coherent h w
  | partEnd st => cases hf; exact takePartEnd_coherent h st
  | engageDelayEnd w => cases hf; exact takeEngageEnd_coherent h w
  | blankingTimeEnd w => cases hf; exact takeBlankingEnd_coherent h w
  | filterTimerFires w k => cases hf; exact takeFilter_coherent h w k
  | overtime w => cases hf; exact takeOvertime_coherent h w
  | checkDurationEnd w => cases hf; exact takeCheckEnd_coherent h w
  | stretchTimerEnd st => cases hf; exact takeStretchEnd_coherent h st
  | watchdogExpiry => cases hf; exact takeExpiry_coherent h
  | conversionEnd code => cases hf; exact convert_coherent h _
  | _ => cases hf

/-! ### The tick, the end of a step and resets -/

section Steps

variable {s : State}

theorem tickWheel_fits (h : Coherent s calm none) (w : WheelNo) : WheelFitsAt s w (tickWheel s w) :=
  wheelFits_recounted (h.wheels w) rfl rfl Option.map_eq_none_iff Option.map_eq_none_iff (fun hp => if_neg hp)
    Option.map_eq_none_iff Option.map_eq_none_iff Option.map_eq_none_iff Option.map_eq_none_iff

theorem watchdogFits_tickLink {l : Link} (h : WatchdogFits l) : WatchdogFits (tickLink l) :=
  fun hw => h fun hnone => hw (Option.map_eq_none_iff.2 hnone)

theorem tickBody_coherent (h : Coherent s calm none) (x : Samples) : Coherent (tickBody x s) calm none := by
  have hpart : ∀ st : StationNo, (tickBody x s).stations[st].partOpen = s.stations[st].partOpen := fun st => by
    change (Vector.ofFn fun v : StationNo => tickStation s.stations[v])[st].partOpen = _
    rw [Fin.getElem_fin, Vector.getElem_ofFn]
    rfl
  refine h.rewheel (t := tickBody x s) nofun rfl rfl rfl watchdogFits_tickLink (fun q _ hs => ?_) fun w => ?_
  · rw [hpart]
    exact ((h.sound_at rfl).due hs).1
  · have hwheel : (tickBody x s).wheels[w] = tickWheel s w := by
      change (Vector.ofFn (tickWheel s))[w] = _
      rw [Fin.getElem_fin, Vector.getElem_ofFn]
    rw [WheelFitsAt, hpart, hwheel]
    exact tickWheel_fits h w

theorem sameParts_commit (before after : State) : SameParts after (commit before after) :=
  ⟨rfl, rfl, rfl, rfl, commit_partOpen before after, rfl, id⟩

theorem resetTo_coherent (s : State) (cause : ResetCause) (nRST : Bool) : Coherent (resetTo s cause nRST) calm none :=
  coherent_congr (coherent_of_consistent reset_consistent) ⟨rfl, rfl, rfl, rfl, fun _ => rfl, rfl, id⟩

end Steps

theorem coherent_keptByStep : KeptByStep fun s => Coherent s calm none where
  reset := resetTo_coherent
  commit before after h := coherent_congr h (sameParts_commit before after)
  reply s b h := coherent_congr h (sameParts_setLink (l := { s.link with buffer := b }) id)
  count _ _ h := coherent_congr h ⟨rfl, rfl, rfl, rfl, fun _ => rfl, rfl, id⟩
  queue _ _ h := coherent_congr h ⟨rfl, rfl, rfl, rfl, fun _ => rfl, rfl, id⟩
  command _ _ _ hf h := command_coherent hf h
  event _ _ _ hf h := event_coherent hf h
  tick x _ h := tickBody_coherent h x

/-- Settles O52: each part of a step keeps the invariant in which consistency is taken apart. -/
theorem everyStepKeepsThePartConsistent : Obligations.EveryStepKeepsThePartConsistent :=
  fun _ _ hs h => consistent_of_coherent (coherent_keptByStep.step (coherent_of_consistent hs) h)

end Sys2Proof.Proofs
